-- ==== Sys2Proof/Word.lean ====
section
/-! DEFINITION. The word types of the core: bytes, 16-bit addresses and 32-bit interface words (00_scope.md R8, R9, R10). -/

namespace Sys2Proof

/-- An 8-bit register or memory byte (R8). Arithmetic on it wraps modulo 256 (R10). -/
abbrev Byte := BitVec 8

/-- A 16-bit address (R8). Arithmetic on it wraps modulo 65536 (R10). -/
abbrev Addr := BitVec 16

/-- The 32-bit interface word of the `instr` port (R60, R220). -/
abbrev IWord := BitVec 32

end Sys2Proof
end

