-- ==== Sys2Proof/Config.lean ====
section
/-! DEFINITION. What is fixed for the machine: the addresses the core knows (00_scope.md R8, 20_memory.md R47) and
the byte that memory nothing has listed reads as (log 3). The spec leaves no result of an instruction undefined
(93_implementation_defined.md section 1), so there is no uninterpreted constant here. -/

namespace Sys2Proof.Config

/-- Base of the stack page 0x0100..0x01FF (R8, R47). -/
def stackPage : Addr := 0x0100

/-- Where the little-endian BRK vector stands (R8, R47; D10). -/
def brkVector : Addr := 0xFFFE

/-- DESIGN CHOICE (log 3), unsafe: what a byte of memory reads as when the state lists none for it. The spec's
launch memory `INIT.M` may hold anything (R240); every launch memory can be listed byte by byte. -/
def unlistedByte : Byte := 0x00

end Sys2Proof.Config
end

