-- ==== Sys2Proof/Syntax.lean ====
section
/-! DEFINITION. The syntax the core executes: the 13 operand forms, the 56 operations, and instructions, which pair
an operation with an operand (30_encoding.md R60, R61, R62). `Instr` has one constructor for each mnemonic of the opcode
table; a row of the table is a constructor with one operand form (log 1). -/

namespace Sys2Proof

/-- The 13 operand forms, in the order R61 numbers them. -/
inductive Form where
  | implicit | accumulator | immediate | zeroPage | zeroPageX
  | zeroPageY | relative | absolute | absoluteX | absoluteY
  | indirect | indexedIndirect | indirectIndexed
  deriving DecidableEq, Repr

/-- An operand: a form with its literal bytes (R61). The payload of `relative` is a signed byte (R65). -/
inductive Operand where
  | implicit
  | accumulator
  | immediate (v : Byte)
  | zeroPage (o : Byte)
  | zeroPageX (o : Byte)
  | zeroPageY (o : Byte)
  | relative (o : Byte)
  | absolute (a : Addr)
  | absoluteX (a : Addr)
  | absoluteY (a : Addr)
  | indirect (a : Addr)
  | indexedIndirect (o : Byte)
  | indirectIndexed (o : Byte)
  deriving DecidableEq, Repr

/-- The form of an operand. -/
def Operand.form : Operand → Form
  | .implicit => .implicit
  | .accumulator => .accumulator
  | .immediate _ => .immediate
  | .zeroPage _ => .zeroPage
  | .zeroPageX _ => .zeroPageX
  | .zeroPageY _ => .zeroPageY
  | .relative _ => .relative
  | .absolute _ => .absolute
  | .absoluteX _ => .absoluteX
  | .absoluteY _ => .absoluteY
  | .indirect _ => .indirect
  | .indexedIndirect _ => .indexedIndirect
  | .indirectIndexed _ => .indirectIndexed

/-- The 56 operation tags, in the alphabetical order R62 numbers them. -/
inductive Operation where
  | adc | and | asl | bcc | bcs | beq | bit | bmi
  | bne | bpl | brk | bvc | bvs | clc | cld | cli
  | clv | cmp | cpx | cpy | dec | dex | dey | eor
  | inc | inx | iny | jmp | jsr | lda | ldx | ldy
  | lsr | nop | ora | pha | php | pla | plp | rol
  | ror | rti | rts | sbc | sec | sed | sei | sta
  | stx | sty | tax | tay | tsx | txa | txs | tya
  deriving DecidableEq, Repr

/-- An instruction: an operation with its operand (R60). Each constructor's rule is named beside it. -/
inductive Instr where
  /-- ADC (R122): add with carry. -/
  | adc (op : Operand)
  /-- AND (R124): bitwise AND into the accumulator. -/
  | and (op : Operand)
  /-- ASL (R127): arithmetic shift left of the accumulator or a memory byte. -/
  | asl (op : Operand)
  /-- BCC (R162): branch if carry clear. -/
  | bcc (op : Operand)
  /-- BCS (R163): branch if carry set. -/
  | bcs (op : Operand)
  /-- BEQ (R164): branch if equal (Z set). -/
  | beq (op : Operand)
  /-- BIT (R204): test bits of memory against the accumulator. -/
  | bit (op : Operand)
  /-- BMI (R166): branch if minus (N set). -/
  | bmi (op : Operand)
  /-- BNE (R165): branch if not equal (Z clear). -/
  | bne (op : Operand)
  /-- BPL (R167): branch if plus (N clear). -/
  | bpl (op : Operand)
  /-- BRK (R173): software interrupt (break). -/
  | brk (op : Operand)
  /-- BVC (R168): branch if overflow clear. -/
  | bvc (op : Operand)
  /-- BVS (R169): branch if overflow set. -/
  | bvs (op : Operand)
  /-- CLC (R181): clear carry. -/
  | clc (op : Operand)
  /-- CLD (R186): clear decimal. -/
  | cld (op : Operand)
  /-- CLI (R183): clear interrupt-disable. -/
  | cli (op : Operand)
  /-- CLV (R185): clear overflow. -/
  | clv (op : Operand)
  /-- CMP (R137): compare the accumulator with the operand. -/
  | cmp (op : Operand)
  /-- CPX (R138): compare X with the operand. -/
  | cpx (op : Operand)
  /-- CPY (R139): compare Y with the operand. -/
  | cpy (op : Operand)
  /-- DEC (R132): decrement a memory byte. -/
  | dec (op : Operand)
  /-- DEX (R135): decrement X. -/
  | dex (op : Operand)
  /-- DEY (R136): decrement Y. -/
  | dey (op : Operand)
  /-- EOR (R126): bitwise exclusive OR into the accumulator. -/
  | eor (op : Operand)
  /-- INC (R131): increment a memory byte. -/
  | inc (op : Operand)
  /-- INX (R133): increment X. -/
  | inx (op : Operand)
  /-- INY (R134): increment Y. -/
  | iny (op : Operand)
  /-- JMP (R170): jump. -/
  | jmp (op : Operand)
  /-- JSR (R171): jump to subroutine. -/
  | jsr (op : Operand)
  /-- LDA (R188): load the accumulator. -/
  | lda (op : Operand)
  /-- LDX (R189): load X. -/
  | ldx (op : Operand)
  /-- LDY (R190): load Y. -/
  | ldy (op : Operand)
  /-- LSR (R128): logical shift right of the accumulator or a memory byte. -/
  | lsr (op : Operand)
  /-- NOP (R205): no operation. -/
  | nop (op : Operand)
  /-- ORA (R125): bitwise inclusive OR into the accumulator. -/
  | ora (op : Operand)
  /-- PHA (R200): push the accumulator. -/
  | pha (op : Operand)
  /-- PHP (R202): push the status register. -/
  | php (op : Operand)
  /-- PLA (R201): pop the accumulator. -/
  | pla (op : Operand)
  /-- PLP (R203): pop the status register. -/
  | plp (op : Operand)
  /-- ROL (R129): rotate left through carry. -/
  | rol (op : Operand)
  /-- ROR (R130): rotate right through carry. -/
  | ror (op : Operand)
  /-- RTI (R174): return from interrupt. -/
  | rti (op : Operand)
  /-- RTS (R172): return from subroutine. -/
  | rts (op : Operand)
  /-- SBC (R123): subtract with borrow. -/
  | sbc (op : Operand)
  /-- SEC (R182): set carry. -/
  | sec (op : Operand)
  /-- SED (R187): set decimal. -/
  | sed (op : Operand)
  /-- SEI (R184): set interrupt-disable. -/
  | sei (op : Operand)
  /-- STA (R191): store the accumulator. -/
  | sta (op : Operand)
  /-- STX (R192): store X. -/
  | stx (op : Operand)
  /-- STY (R193): store Y. -/
  | sty (op : Operand)
  /-- TAX (R194): transfer A to X. -/
  | tax (op : Operand)
  /-- TAY (R196): transfer A to Y. -/
  | tay (op : Operand)
  /-- TSX (R199): transfer the stack pointer to X. -/
  | tsx (op : Operand)
  /-- TXA (R195): transfer X to A. -/
  | txa (op : Operand)
  /-- TXS (R198): transfer X to the stack pointer. -/
  | txs (op : Operand)
  /-- TYA (R197): transfer Y to A. -/
  | tya (op : Operand)
  deriving DecidableEq, Repr

/-- The operation tag of an instruction. -/
def Instr.operation : Instr → Operation
  | .adc _ => .adc
  | .and _ => .and
  | .asl _ => .asl
  | .bcc _ => .bcc
  | .bcs _ => .bcs
  | .beq _ => .beq
  | .bit _ => .bit
  | .bmi _ => .bmi
  | .bne _ => .bne
  | .bpl _ => .bpl
  | .brk _ => .brk
  | .bvc _ => .bvc
  | .bvs _ => .bvs
  | .clc _ => .clc
  | .cld _ => .cld
  | .cli _ => .cli
  | .clv _ => .clv
  | .cmp _ => .cmp
  | .cpx _ => .cpx
  | .cpy _ => .cpy
  | .dec _ => .dec
  | .dex _ => .dex
  | .dey _ => .dey
  | .eor _ => .eor
  | .inc _ => .inc
  | .inx _ => .inx
  | .iny _ => .iny
  | .jmp _ => .jmp
  | .jsr _ => .jsr
  | .lda _ => .lda
  | .ldx _ => .ldx
  | .ldy _ => .ldy
  | .lsr _ => .lsr
  | .nop _ => .nop
  | .ora _ => .ora
  | .pha _ => .pha
  | .php _ => .php
  | .pla _ => .pla
  | .plp _ => .plp
  | .rol _ => .rol
  | .ror _ => .ror
  | .rti _ => .rti
  | .rts _ => .rts
  | .sbc _ => .sbc
  | .sec _ => .sec
  | .sed _ => .sed
  | .sei _ => .sei
  | .sta _ => .sta
  | .stx _ => .stx
  | .sty _ => .sty
  | .tax _ => .tax
  | .tay _ => .tay
  | .tsx _ => .tsx
  | .txa _ => .txa
  | .txs _ => .txs
  | .tya _ => .tya

/-- The operand of an instruction. -/
def Instr.operand : Instr → Operand
  | .adc op | .and op | .asl op | .bcc op | .bcs op | .beq op | .bit op
  | .bmi op | .bne op | .bpl op | .brk op | .bvc op | .bvs op | .clc op
  | .cld op | .cli op | .clv op | .cmp op | .cpx op | .cpy op | .dec op
  | .dex op | .dey op | .eor op | .inc op | .inx op | .iny op | .jmp op
  | .jsr op | .lda op | .ldx op | .ldy op | .lsr op | .nop op | .ora op
  | .pha op | .php op | .pla op | .plp op | .rol op | .ror op | .rti op
  | .rts op | .sbc op | .sec op | .sed op | .sei op | .sta op | .stx op
  | .sty op | .tax op | .tay op | .tsx op | .txa op | .txs op | .tya op => op

/-- The instruction that pairs an operation with an operand. -/
def Instr.of : Operation → Operand → Instr
  | .adc, op => .adc op
  | .and, op => .and op
  | .asl, op => .asl op
  | .bcc, op => .bcc op
  | .bcs, op => .bcs op
  | .beq, op => .beq op
  | .bit, op => .bit op
  | .bmi, op => .bmi op
  | .bne, op => .bne op
  | .bpl, op => .bpl op
  | .brk, op => .brk op
  | .bvc, op => .bvc op
  | .bvs, op => .bvs op
  | .clc, op => .clc op
  | .cld, op => .cld op
  | .cli, op => .cli op
  | .clv, op => .clv op
  | .cmp, op => .cmp op
  | .cpx, op => .cpx op
  | .cpy, op => .cpy op
  | .dec, op => .dec op
  | .dex, op => .dex op
  | .dey, op => .dey op
  | .eor, op => .eor op
  | .inc, op => .inc op
  | .inx, op => .inx op
  | .iny, op => .iny op
  | .jmp, op => .jmp op
  | .jsr, op => .jsr op
  | .lda, op => .lda op
  | .ldx, op => .ldx op
  | .ldy, op => .ldy op
  | .lsr, op => .lsr op
  | .nop, op => .nop op
  | .ora, op => .ora op
  | .pha, op => .pha op
  | .php, op => .php op
  | .pla, op => .pla op
  | .plp, op => .plp op
  | .rol, op => .rol op
  | .ror, op => .ror op
  | .rti, op => .rti op
  | .rts, op => .rts op
  | .sbc, op => .sbc op
  | .sec, op => .sec op
  | .sed, op => .sed op
  | .sei, op => .sei op
  | .sta, op => .sta op
  | .stx, op => .stx op
  | .sty, op => .sty op
  | .tax, op => .tax op
  | .tay, op => .tay op
  | .tsx, op => .tsx op
  | .txa, op => .txa op
  | .txs, op => .txs op
  | .tya, op => .tya op

end Sys2Proof
end

