-- ==== Sys2Proof/Machine/Admitted.lean ====
section
/-! DEFINITION. The table of admitted (operation, operand form) pairs with the opcode byte of each, read row by row
from 30_encoding.md R62 and opcode_table.json (R64; 92_eei_decisions.md D2), and the decision of R224 over every pair. The opcode byte is
informative: only the reference dispatcher (R247) uses it. -/

namespace Sys2Proof

/-- Every operand form, in the order of R61. -/
def Form.all : List Form :=
  [.implicit, .accumulator, .immediate, .zeroPage, .zeroPageX, .zeroPageY, .relative,
   .absolute, .absoluteX, .absoluteY, .indirect, .indexedIndirect, .indirectIndexed]

/-- Every operation, in the alphabetical order of R62. -/
def Operation.all : List Operation :=
  [.adc, .and, .asl, .bcc, .bcs, .beq, .bit, .bmi, .bne, .bpl, .brk, .bvc, .bvs, .clc,
   .cld, .cli, .clv, .cmp, .cpx, .cpy, .dec, .dex, .dey, .eor, .inc, .inx, .iny, .jmp,
   .jsr, .lda, .ldx, .ldy, .lsr, .nop, .ora, .pha, .php, .pla, .plp, .rol, .ror, .rti,
   .rts, .sbc, .sec, .sed, .sei, .sta, .stx, .sty, .tax, .tay, .tsx, .txa, .txs, .tya]

/-- The rows of R62: the operand forms each operation admits, with the conventional opcode byte of each pair. -/
def Operation.rows : Operation → List (Form × Byte)
  | .adc => [(.immediate, 0x69), (.zeroPage, 0x65), (.zeroPageX, 0x75), (.absolute, 0x6D), (.absoluteX, 0x7D), (.absoluteY, 0x79), (.indexedIndirect, 0x61), (.indirectIndexed, 0x71)]
  | .and => [(.immediate, 0x29), (.zeroPage, 0x25), (.zeroPageX, 0x35), (.absolute, 0x2D), (.absoluteX, 0x3D), (.absoluteY, 0x39), (.indexedIndirect, 0x21), (.indirectIndexed, 0x31)]
  | .asl => [(.accumulator, 0x0A), (.zeroPage, 0x06), (.zeroPageX, 0x16), (.absolute, 0x0E), (.absoluteX, 0x1E)]
  | .bcc => [(.relative, 0x90)]
  | .bcs => [(.relative, 0xB0)]
  | .beq => [(.relative, 0xF0)]
  | .bit => [(.zeroPage, 0x24), (.absolute, 0x2C)]
  | .bmi => [(.relative, 0x30)]
  | .bne => [(.relative, 0xD0)]
  | .bpl => [(.relative, 0x10)]
  | .brk => [(.implicit, 0x00)]
  | .bvc => [(.relative, 0x50)]
  | .bvs => [(.relative, 0x70)]
  | .clc => [(.implicit, 0x18)]
  | .cld => [(.implicit, 0xD8)]
  | .cli => [(.implicit, 0x58)]
  | .clv => [(.implicit, 0xB8)]
  | .cmp => [(.immediate, 0xC9), (.zeroPage, 0xC5), (.zeroPageX, 0xD5), (.absolute, 0xCD), (.absoluteX, 0xDD), (.absoluteY, 0xD9), (.indexedIndirect, 0xC1), (.indirectIndexed, 0xD1)]
  | .cpx => [(.immediate, 0xE0), (.zeroPage, 0xE4), (.absolute, 0xEC)]
  | .cpy => [(.immediate, 0xC0), (.zeroPage, 0xC4), (.absolute, 0xCC)]
  | .dec => [(.zeroPage, 0xC6), (.zeroPageX, 0xD6), (.absolute, 0xCE), (.absoluteX, 0xDE)]
  | .dex => [(.implicit, 0xCA)]
  | .dey => [(.implicit, 0x88)]
  | .eor => [(.immediate, 0x49), (.zeroPage, 0x45), (.zeroPageX, 0x55), (.absolute, 0x4D), (.absoluteX, 0x5D), (.absoluteY, 0x59), (.indexedIndirect, 0x41), (.indirectIndexed, 0x51)]
  | .inc => [(.zeroPage, 0xE6), (.zeroPageX, 0xF6), (.absolute, 0xEE), (.absoluteX, 0xFE)]
  | .inx => [(.implicit, 0xE8)]
  | .iny => [(.implicit, 0xC8)]
  | .jmp => [(.absolute, 0x4C), (.indirect, 0x6C)]
  | .jsr => [(.absolute, 0x20)]
  | .lda => [(.immediate, 0xA9), (.zeroPage, 0xA5), (.zeroPageX, 0xB5), (.absolute, 0xAD), (.absoluteX, 0xBD), (.absoluteY, 0xB9), (.indexedIndirect, 0xA1), (.indirectIndexed, 0xB1)]
  | .ldx => [(.immediate, 0xA2), (.zeroPage, 0xA6), (.zeroPageY, 0xB6), (.absolute, 0xAE), (.absoluteY, 0xBE)]
  | .ldy => [(.immediate, 0xA0), (.zeroPage, 0xA4), (.zeroPageX, 0xB4), (.absolute, 0xAC), (.absoluteX, 0xBC)]
  | .lsr => [(.accumulator, 0x4A), (.zeroPage, 0x46), (.zeroPageX, 0x56), (.absolute, 0x4E), (.absoluteX, 0x5E)]
  | .nop => [(.implicit, 0xEA)]
  | .ora => [(.immediate, 0x09), (.zeroPage, 0x05), (.zeroPageX, 0x15), (.absolute, 0x0D), (.absoluteX, 0x1D), (.absoluteY, 0x19), (.indexedIndirect, 0x01), (.indirectIndexed, 0x11)]
  | .pha => [(.implicit, 0x48)]
  | .php => [(.implicit, 0x08)]
  | .pla => [(.implicit, 0x68)]
  | .plp => [(.implicit, 0x28)]
  | .rol => [(.accumulator, 0x2A), (.zeroPage, 0x26), (.zeroPageX, 0x36), (.absolute, 0x2E), (.absoluteX, 0x3E)]
  | .ror => [(.accumulator, 0x6A), (.zeroPage, 0x66), (.zeroPageX, 0x76), (.absolute, 0x6E), (.absoluteX, 0x7E)]
  | .rti => [(.implicit, 0x40)]
  | .rts => [(.implicit, 0x60)]
  | .sbc => [(.immediate, 0xE9), (.zeroPage, 0xE5), (.zeroPageX, 0xF5), (.absolute, 0xED), (.absoluteX, 0xFD), (.absoluteY, 0xF9), (.indexedIndirect, 0xE1), (.indirectIndexed, 0xF1)]
  | .sec => [(.implicit, 0x38)]
  | .sed => [(.implicit, 0xF8)]
  | .sei => [(.implicit, 0x78)]
  | .sta => [(.zeroPage, 0x85), (.zeroPageX, 0x95), (.absolute, 0x8D), (.absoluteX, 0x9D), (.absoluteY, 0x99), (.indexedIndirect, 0x81), (.indirectIndexed, 0x91)]
  | .stx => [(.zeroPage, 0x86), (.zeroPageY, 0x96), (.absolute, 0x8E)]
  | .sty => [(.zeroPage, 0x84), (.zeroPageX, 0x94), (.absolute, 0x8C)]
  | .tax => [(.implicit, 0xAA)]
  | .tay => [(.implicit, 0xA8)]
  | .tsx => [(.implicit, 0xBA)]
  | .txa => [(.implicit, 0x8A)]
  | .txs => [(.implicit, 0x9A)]
  | .tya => [(.implicit, 0x98)]

/-- The pair is one of the 151 rows of opcode_table.json (R64). -/
def admits (o : Operation) (f : Form) : Bool := o.rows.any fun r => r.1 == f

/-- The conventional opcode byte of a pair, where the pair is admitted (R62, R68). -/
def opcodeByte (o : Operation) (f : Form) : Option Byte := (o.rows.find? fun r => r.1 == f).map (·.2)

/-- The row of an opcode byte, if it has one: the map of R68 read from the table of R62. -/
def byteRow (b : Byte) : Option (Operation × Form) :=
  Operation.all.findSome? fun o => (o.rows.find? fun r => r.2 == b).map fun r => (o, r.1)

/-- The `status` output of a call (R235). -/
inductive Status where
  /-- 0: the instruction's rule was executed. -/
  | ok
  /-- 1: the recoverable outcome of R222. -/
  | notWritable
  /-- 2: the fatal outcome of R221. -/
  | contractViolation
  deriving DecidableEq, Repr

/-- The 2-bit code of the `status` port; 3 is never produced (R235). -/
def Status.code : Status → BitVec 2
  | .ok => 0
  | .notWritable => 1
  | .contractViolation => 2

/-- A store writes through its operand and reads nothing through it (R191 to R193). -/
def Operation.isStore : Operation → Bool
  | .sta | .stx | .sty => true
  | _ => false

/-- A read-modify-write operation reads its operand and writes the result back to it (R127 to R132). -/
def Operation.isReadModifyWrite : Operation → Bool
  | .asl | .lsr | .rol | .ror | .inc | .dec => true
  | _ => false

/-- Steps 3 to 6 of R224: the outcome of a pair, decided before any state is written. -/
def pairStatus (o : Operation) (f : Form) : Status :=
  if admits o f then .ok
  else if o.isStore && (f == .implicit || f == .immediate || f == .relative) then .notWritable
  else if o.isReadModifyWrite && (f == .immediate || f == .relative) then .notWritable
  else .contractViolation

end Sys2Proof
end

