-- ==== Sys2Proof/WellFormed.lean ====
section
/-! DEFINITION. Which instructions are well-formed: those whose pair is admitted (30_encoding.md R63 check 5, R64). The
other checks of R63 concern bits of the interface word that an `Instr` does not carry; `decode` makes them. -/

namespace Sys2Proof

/-- The instruction's (operation, operand form) pair is a row of opcode_table.json (R64). -/
def Instr.wellFormed (i : Instr) : Bool := admits i.operation i.operand.form

end Sys2Proof
end

