-- ==== Sys2Proof/Decode.lean ====
section
/-! DEFINITION. The decoder of the interface word (30_encoding.md R60 to R65), total on every word and rejecting by name
what checks 1 to 4 of R63 reject; the encoder, from the same tables; and the byte stream of the reference dispatcher
(R68, R69; 70_reset_and_hazards.md R247), read into an interface word. -/

namespace Sys2Proof

/-! ### The numbering of tags and forms -/

/-- The 6-bit tag of an operation (R62). -/
def Operation.tag : Operation → BitVec 6
  | .adc => 0 | .and => 1 | .asl => 2 | .bcc => 3 | .bcs => 4 | .beq => 5 | .bit => 6 | .bmi => 7
  | .bne => 8 | .bpl => 9 | .brk => 10 | .bvc => 11 | .bvs => 12 | .clc => 13 | .cld => 14 | .cli => 15
  | .clv => 16 | .cmp => 17 | .cpx => 18 | .cpy => 19 | .dec => 20 | .dex => 21 | .dey => 22 | .eor => 23
  | .inc => 24 | .inx => 25 | .iny => 26 | .jmp => 27 | .jsr => 28 | .lda => 29 | .ldx => 30 | .ldy => 31
  | .lsr => 32 | .nop => 33 | .ora => 34 | .pha => 35 | .php => 36 | .pla => 37 | .plp => 38 | .rol => 39
  | .ror => 40 | .rti => 41 | .rts => 42 | .sbc => 43 | .sec => 44 | .sed => 45 | .sei => 46 | .sta => 47
  | .stx => 48 | .sty => 49 | .tax => 50 | .tay => 51 | .tsx => 52 | .txa => 53 | .txs => 54 | .tya => 55

/-- The 4-bit number of an operand form (R61). -/
def Form.code : Form → BitVec 4
  | .implicit => 0 | .accumulator => 1 | .immediate => 2 | .zeroPage => 3 | .zeroPageX => 4 | .zeroPageY => 5
  | .relative => 6 | .absolute => 7 | .absoluteX => 8 | .absoluteY => 9 | .indirect => 10
  | .indexedIndirect => 11 | .indirectIndexed => 12

/-- The operation a tag names; the tags 56..63 name none (R62). -/
def Operation.ofTag (t : BitVec 6) : Option Operation := Operation.all[t.toNat]?

/-- The form a code names; the codes 13..15 name none (R61). -/
def Form.ofCode (c : BitVec 4) : Option Form := Form.all[c.toNat]?

/-! ### The fields of the interface word (R60) -/

/-- Bits 31:26, the operation tag. -/
def opField (w : IWord) : BitVec 6 := w.extractLsb' 26 6

/-- Bits 25:22, the operand form. -/
def modeField (w : IWord) : BitVec 4 := w.extractLsb' 22 4

/-- Bits 21:16, reserved. -/
def reservedField (w : IWord) : BitVec 6 := w.extractLsb' 16 6

/-- Bits 15:0, the payload. -/
def payloadField (w : IWord) : BitVec 16 := w.extractLsb' 0 16

/-- The number of payload bits a form uses (R61). -/
def Form.payloadBits : Form → Nat
  | .implicit | .accumulator => 0
  | .immediate | .zeroPage | .zeroPageX | .zeroPageY | .relative | .indexedIndirect | .indirectIndexed => 8
  | .absolute | .absoluteX | .absoluteY | .indirect => 16

/-- Check 4 of R63: the payload bits the form does not use are 0. -/
def unusedPayloadZero (f : Form) (p : BitVec 16) : Bool := p >>> f.payloadBits == 0

/-- The low byte of a payload, where an 8-bit operand byte stands (R61). -/
def payloadByte (p : BitVec 16) : Byte := p.extractLsb' 0 8

/-- The operand of a form whose literal bytes stand in the payload (R61, R65). -/
def Operand.ofPayload (f : Form) (p : BitVec 16) : Operand :=
  match f with
  | .implicit => .implicit
  | .accumulator => .accumulator
  | .immediate => .immediate (payloadByte p)
  | .zeroPage => .zeroPage (payloadByte p)
  | .zeroPageX => .zeroPageX (payloadByte p)
  | .zeroPageY => .zeroPageY (payloadByte p)
  | .relative => .relative (payloadByte p)
  | .absolute => .absolute p
  | .absoluteX => .absoluteX p
  | .absoluteY => .absoluteY p
  | .indirect => .indirect p
  | .indexedIndirect => .indexedIndirect (payloadByte p)
  | .indirectIndexed => .indirectIndexed (payloadByte p)

/-! ### Decoding -/

/-- Why an interface word is not an instruction: the checks 1 to 4 of R63, each by name. All of them are contract
violations (R221, R223). -/
inductive DecodeError where
  /-- The tag is one of 56..63 (check 1). -/
  | reservedOperation
  /-- The form is one of 13..15 (check 2). -/
  | reservedMode
  /-- Bits 21:16 are not all 0 (check 3). -/
  | reservedBits
  /-- A payload bit the form does not use is not 0 (check 4). -/
  | unusedPayload
  deriving DecidableEq, Repr

/-- The instruction an interface word carries (R60, R61, R62), or the check of R63 it fails. Whether the pair is admitted
(check 5) is decided when the instruction is executed (R224). -/
def decode (w : IWord) : Except DecodeError Instr :=
  match Operation.ofTag (opField w) with
  | none => .error .reservedOperation
  | some o =>
    match Form.ofCode (modeField w) with
    | none => .error .reservedMode
    | some f =>
      if reservedField w ≠ 0 then .error .reservedBits
      else if unusedPayloadZero f (payloadField w) then .ok (Instr.of o (Operand.ofPayload f (payloadField w)))
      else .error .unusedPayload

/-- The instruction read from a row's word, its bits numbered as opcode_table.json numbers them: every row is one
32-bit interface word. -/
def decodeTableWord (nbits w : Nat) : Option Instr :=
  if nbits ≤ 32 ∧ w < 2 ^ nbits then (decode (BitVec.ofNat 32 w)).toOption else none

/-! ### Encoding -/

/-- The literal bytes of an operand, placed in the payload (R61). -/
def Operand.payload : Operand → BitVec 16
  | .implicit | .accumulator => 0
  | .immediate o | .zeroPage o | .zeroPageX o | .zeroPageY o => o.setWidth 16
  | .relative o | .indexedIndirect o | .indirectIndexed o => o.setWidth 16
  | .absolute a | .absoluteX a | .absoluteY a | .indirect a => a

/-- `word(op, mode, payload)` of R247: the fields of R60 side by side, bits 21:16 zero. -/
def packWord (o : Operation) (f : Form) (p : BitVec 16) : IWord := o.tag ++ f.code ++ (0 : BitVec 6) ++ p

/-- The interface word that carries an instruction (R60). -/
def encode (i : Instr) : IWord := packWord i.operation i.operand.form i.operand.payload

/-! ### The byte stream of the reference dispatcher -/

/-- The number of bytes of an instruction of this form in the byte stream (R69). -/
def Form.length (f : Form) : Nat := 1 + f.payloadBits / 8

/-- The payload an instruction's operand bytes make, low byte first (R69, R247). -/
def streamPayload (f : Form) (b1 b2 : Byte) : BitVec 16 :=
  match f.length with
  | 1 => 0
  | 2 => b1.setWidth 16
  | _ => b2 ++ b1

/-- The interface word and the length of the instruction whose bytes are `b0`, `b1`, `b2`; a byte of `b1`, `b2` beyond its
length is not looked at. None where `b0` has no row (R70, R247). -/
def streamWord (b0 b1 b2 : Byte) : Option (IWord × Nat) :=
  (byteRow b0).map fun (o, f) => (packWord o f (streamPayload f b1 b2), f.length)

/-- The bytes of an admitted instruction in the byte stream: the opcode byte, then the operand's bytes, low byte first
(R68, R69). None where the pair has no opcode byte. -/
def encodeBytes (i : Instr) : Option (List Byte) :=
  (opcodeByte i.operation i.operand.form).map fun b =>
    (b :: [payloadByte i.operand.payload, i.operand.payload.extractLsb' 8 8]).take i.operand.form.length

end Sys2Proof
end

