-- ==== Sys2Proof/Machine/State.lean ====
section
/-! DEFINITION. The state of the core as plain data: the aggregate of 10_state.md R20, the fault mark of R32, and the ports of
60_exceptions.md R220 that are not state of the block but must be seen by its caller; the launch parameter of R240; reset. -/

namespace Sys2Proof.Machine

/-- The byte store as a list of (address, byte), in the canonical form `Memory.wf` says. -/
abbrev Memory := List Host.Cell

/-- One access of the core to the store: `mem_addr`, `mem_we` and the byte on `mem_rdata` or `mem_wdata` (R220, R43). -/
inductive Access where
  /-- `mem_we` = 0: the byte `v` was read at `a`. -/
  | read (a : Addr) (v : Byte)
  /-- `mem_we` = 1: the byte `v` was written at `a`. -/
  | write (a : Addr) (v : Byte)
  deriving DecidableEq, Repr

/-- What the last call of `execute` put on the output ports (R220; log 7). -/
structure Ports where
  /-- The `status` port (R235). -/
  status : Status
  /-- The interface word an outcome other than OK records as its information (R223). -/
  info : Option IWord
  /-- The accesses of the call in the order of 20_memory.md R43; empty when the call wrote nothing. -/
  bus : List Access
  deriving DecidableEq, Repr

/-- The state between two calls of `execute` (R20, R32), with the input port and the output ports (log 6, log 7). -/
structure State where
  /-- `A`, the accumulator (R20, R21). -/
  a : Byte
  /-- `X`, general and index register (R20, R22). -/
  x : Byte
  /-- `Y`, general and index register (R20, R22). -/
  y : Byte
  /-- `SP`, the offset into the stack page (R20, R23). -/
  sp : Byte
  /-- `PC` (R20, R24). -/
  pc : Addr
  /-- `P`, laid out `N V 1 B D I Z C` from bit 7 down (R20, R25). Bit 5 is hardwired: `State.psw` reads it as 1. -/
  p : Byte
  /-- `M`, the byte store (R20; 20_memory.md R40). -/
  mem : Memory
  /-- The sticky fault mark, also the `fault` port (R32, R220, R221). -/
  faulted : Bool
  /-- The `instr` port: the interface word the host offers for the next call, or none, and then the reference
  dispatcher makes the next call (R220, R236, R247; log 6). -/
  instr : Option IWord
  /-- The output ports as the last call left them (log 7). -/
  out : Ports
  deriving DecidableEq, Repr

/-- Why a step stops. -/
inductive Fault where
  /-- A call on a core whose fault mark is set (R221 item 4, R224 step 2, R247): the core is stuck for ever, status 2, and
  nothing changes. Raised by every meaning, by `execute` and by the dispatcher. Safe: the spec has no later state. -/
  | coreFaulted
  deriving DecidableEq, Repr

/-- Why a step has no meaning in the model. -/
inductive Refusal where
  /-- An instruction with no meaning yet. No arm of `exec` raises it: every instruction has its meaning. Safe. -/
  | notModelled (mnemonic : String)
  deriving DecidableEq, Repr

/-- What a meaning, `execute` and the step answer. -/
abbrev Result := Host.Outcome State Fault Refusal

/-- The launch parameter `INIT` of R240: any values, and the launch contents of memory byte by byte. -/
structure Init where
  a : Byte
  x : Byte
  y : Byte
  sp : Byte
  pc : Addr
  p : Byte
  mem : List (Addr × Byte)
  deriving DecidableEq, Repr

/-- The output ports before the first call (log 7). -/
def Ports.idle : Ports := { status := .ok, info := none, bus := [] }

/-- The state right after creation (R34, R35, R240). The spec fixes bit 5 of `P` (1) and the fault mark (clear); the other
registers are the launch parameter, here DESIGN CHOICE zero (log 2), with no byte of memory listed (log 3) and nothing
offered on `instr` (log 6). -/
def State.reset : State :=
  { a := 0x00, x := 0x00, y := 0x00, sp := 0x00, pc := 0x0000, p := 0x20, mem := [], faulted := false, instr := none,
    out := Ports.idle }

end Sys2Proof.Machine
end

