-- ==== Sys2Proof/Machine/Flags.lean ====
section
/-! DEFINITION. The flag_calculator and the status register `P` (10_state.md R25 to R31; 40_stack_and_flags.md R88 to R95), and the
alu_8bit whose outputs it takes (R91 to R93; 42_alu_8bit.md R120). -/

namespace Sys2Proof.Machine

/-! ### The flags of P -/

/-- The seven stored flags (R25). Bit 5 is no flag: nothing names it (R88). -/
inductive Flag where
  | n | v | b | d | i | z | c
  deriving DecidableEq, Repr

/-- The bit of `P` a flag stands at (R25). -/
def Flag.pos : Flag → Nat
  | .n => 7 | .v => 6 | .b => 4 | .d => 3 | .i => 2 | .z => 1 | .c => 0

/-- The mask of a flag (R25, R88). -/
def Flag.mask : Flag → Byte
  | .n => 0x80 | .v => 0x40 | .b => 0x10 | .d => 0x08 | .i => 0x04 | .z => 0x02 | .c => 0x01

/-- The mask of the hardwired bit 5 (R25, R26). -/
def hardwired : Byte := 0x20

/-- `P.F`, read (R89). -/
def getFlag (p : Byte) (f : Flag) : Bool := p.getLsbD f.pos

/-- `P.F <- b` (R88): exactly one bit of `P` changes. -/
def setFlag (p : Byte) (f : Flag) (b : Bool) : Byte := (p &&& ~~~ f.mask) ||| (if b then f.mask else 0)

/-- A whole byte written into `P`: bit 5 of it is ignored and stays 1 (R26, R28; C5). -/
def restoreByte (v : Byte) : Byte := v ||| hardwired

/-- `set_nz(v)` (R90). -/
def setNZ (p : Byte) (v : Byte) : Byte := setFlag (setFlag p .n v.msb) .z (v == 0x00)

/-! ### alu_8bit -/

/-- The ALU operations of R120. -/
inductive AluOp where
  | add | sub | and | or | xor | shl | shr | rol | ror | inc | dec | cmp
  deriving DecidableEq, Repr

/-- The outputs of the ALU (R120). `cout` and `vout` are absent for an operation whose rule writes no such flag (log 11). -/
structure AluOut where
  r : Byte
  cout : Option Bool
  vout : Option Bool
  deriving DecidableEq, Repr

/-- `add8` (R91): the sum at 9 bits, carry out of it, signed overflow. -/
def add8 (a b : Byte) (cin : Bool) : AluOut :=
  let s : BitVec 9 := a.setWidth 9 + b.setWidth 9 + (BitVec.ofBool cin).setWidth 9
  let r : Byte := s.extractLsb' 0 8
  { r := r, cout := some (s.getLsbD 8), vout := some (a.msb == b.msb && r.msb != a.msb) }

/-- `sub8` (R92): the borrow-in is the complement of the carry-in; carry out means no borrow, compared at 9 bits. -/
def sub8 (a b : Byte) (cin : Bool) : AluOut :=
  let bin : BitVec 1 := BitVec.ofBool (!cin)
  let r : Byte := a - b - bin.setWidth 8
  { r := r
    cout := some (decide (b.setWidth 9 + bin.setWidth 9 ≤ a.setWidth 9))
    vout := some (a.msb != b.msb && r.msb != a.msb) }

/-- The difference and the carry of `cmp8` (R93, R120). -/
def cmp8 (r m : Byte) : AluOut := { r := r - m, cout := some (decide (m ≤ r)), vout := none }

/-- alu_8bit (R120): every operation over its inputs `a`, `b` and `cin`. Shifts, rotates and steps take the operand on `a`. -/
def alu (op : AluOp) (a b : Byte) (cin : Bool) : AluOut :=
  match op with
  | .add => add8 a b cin
  | .sub => sub8 a b cin
  | .and => { r := a &&& b, cout := none, vout := none }
  | .or => { r := a ||| b, cout := none, vout := none }
  | .xor => { r := a ^^^ b, cout := none, vout := none }
  | .shl => { r := a <<< 1, cout := some (a.getLsbD 7), vout := none }
  | .shr => { r := a >>> 1, cout := some (a.getLsbD 0), vout := none }
  | .rol => { r := (a <<< 1) ||| (BitVec.ofBool cin).setWidth 8, cout := some (a.getLsbD 7), vout := none }
  | .ror => { r := (a >>> 1) ||| ((BitVec.ofBool cin).setWidth 8 <<< 7), cout := some (a.getLsbD 0), vout := none }
  | .inc => { r := a + 1, cout := none, vout := none }
  | .dec => { r := a - 1, cout := none, vout := none }
  | .cmp => cmp8 a b

/-! ### flag_calculator -/

/-- A flag output that is present is written, and an absent one leaves its flag as it was (R27). -/
def setFlagIf (p : Byte) (f : Flag) (b : Option Bool) : Byte :=
  match b with
  | none => p
  | some b => setFlag p f b

/-- The next `P` from the ALU's outputs (R95): C and V where the operation has them, N and Z from the result (R90). -/
def aluFlags (p : Byte) (o : AluOut) : Byte := setNZ (setFlagIf (setFlagIf p .c o.cout) .v o.vout) o.r

/-- The next `P` of BIT (R204; C2): Z from `A AND m`, N and V from the operand's bits 7 and 6. -/
def bitFlags (p : Byte) (a m : Byte) : Byte :=
  setFlag (setFlag (setFlag p .z ((a &&& m) == 0x00)) .n (m.getLsbD 7)) .v (m.getLsbD 6)

end Sys2Proof.Machine
end

