-- ==== Sys2Proof/Machine/Ops.lean ====
section
/-! DEFINITION. The named operations over memory, registers and the stack (20_memory.md R40 to R42; 10_state.md R20 to R29;
40_stack_and_flags.md R80 to R87), the outcomes of a call (60_exceptions.md R221, R222), the launch of R240, and taking the BRK
trap with its return (R226, R227; 43_branch_jump_controller.md R173, R174). -/

namespace Sys2Proof.Machine

/-! ### The byte store -/

/-- The canonical form: addresses strictly rising and below 65536, and no entry equal to the unlisted byte (log 3). -/
abbrev Memory.wf (m : Memory) : Prop :=
  m.Pairwise (fun c d => c.1 < d.1) ∧ ∀ c ∈ m, c.1 < 65536 ∧ c.2 ≠ Config.unlistedByte

/-- The byte at an address: the listed one, or what an unlisted address reads as (R40; log 3). -/
def Memory.read : Memory → Nat → Byte
  | [], _ => Config.unlistedByte
  | (b, w) :: m, a => if b = a then w else Memory.read m a

/-- The store with no entry for `a`. -/
def Memory.erase : Memory → Nat → Memory
  | [], _ => []
  | (b, w) :: m, a => if b = a then Memory.erase m a else (b, w) :: Memory.erase m a

/-- The store with an entry put where the rising order wants it. -/
def Memory.insert : Memory → Nat → Byte → Memory
  | [], a, v => [(a, v)]
  | (b, w) :: m, a, v => if b < a then (b, w) :: Memory.insert m a v else (a, v) :: (b, w) :: m

/-- The store after a write of one byte (R40, R46). -/
def Memory.write (m : Memory) (a : Nat) (v : Byte) : Memory :=
  if v = Config.unlistedByte then Memory.erase m a else Memory.insert (Memory.erase m a) a v

namespace State

/-! ### Updates of one field each -/

def setA (s : State) (v : Byte) : State := { s with a := v }
def setX (s : State) (v : Byte) : State := { s with x := v }
def setY (s : State) (v : Byte) : State := { s with y := v }
def setSp (s : State) (v : Byte) : State := { s with sp := v }
def setPc (s : State) (t : Addr) : State := { s with pc := t }
def setP (s : State) (v : Byte) : State := { s with p := v }
def setMem (s : State) (m : Memory) : State := { s with mem := m }
def setOut (s : State) (o : Ports) : State := { s with out := o }
def setFaulted (s : State) : State := { s with faulted := true }
def setInstr (s : State) (w : Option IWord) : State := { s with instr := w }

/-- `MemRead(addr, 1)` (R40). -/
def readByte (s : State) (a : Addr) : Byte := s.mem.read a.toNat

/-- `MemWrite(addr, 1, v)` (R40). -/
def writeByte (s : State) (a : Addr) (v : Byte) : State := s.setMem (s.mem.write a.toNat v)

/-- `MemRead16(addr)` (R42): little-endian, the second address modulo 65536. -/
def read16 (s : State) (a : Addr) : Addr := s.readByte (a + 1) ++ s.readByte a

/-- One flag of `P`, read (R89). -/
def flag (s : State) (f : Flag) : Bool := getFlag s.p f

/-- One flag of `P`, written (R88). -/
def setFlag (s : State) (f : Flag) (b : Bool) : State := s.setP (Machine.setFlag s.p f b)

/-- The whole of `P`, read: bit 5 always reads 1 (R26). -/
def psw (s : State) : Byte := restoreByte s.p

/-- A whole byte written into `P` (R28, R33). -/
def setPsw (s : State) (v : Byte) : State := s.setP (restoreByte v)

end State

/-! ### stack_controller -/

/-- The stack slot a value of `SP` names (R23). -/
def stackSlot (sp : Byte) : Addr := Config.stackPage + sp.setWidth 16

/-- The operations of the stack_controller (R87). -/
inductive StackOp where
  | none | push | pop
  deriving DecidableEq, Repr

/-- The 2-bit code of the operation on the `sc_op` port (R87); the spec gives the code 3 no operation. -/
def StackOp.code : StackOp → BitVec 2
  | .none => 0
  | .push => 1
  | .pop => 2

/-- `sp_out` (R87): SP after the operation, wrapping (R80, R81). -/
def stackNext : StackOp → Byte → Byte
  | .none, sp => sp
  | .push, sp => sp - 1
  | .pop, sp => sp + 1

/-- `sc_addr` (R87): the slot the operation accesses; absent when the controller is idle (log 11). -/
def stackAddr : StackOp → Byte → Option Addr
  | .none, _ => Option.none
  | .push, sp => some (stackSlot sp)
  | .pop, sp => some (stackSlot (sp + 1))

namespace State

/-- `push(v)` (R80). -/
def push (s : State) (v : Byte) : State := (s.writeByte (stackSlot s.sp) v).setSp (stackNext .push s.sp)

/-- The byte `pop()` returns (R81). -/
def popValue (s : State) : Byte := s.readByte (stackSlot (stackNext .pop s.sp))

/-- The state after `pop()` (R81). -/
def popped (s : State) : State := s.setSp (stackNext .pop s.sp)

/-- `push_pc()` (R82): high byte first. -/
def pushPc (s : State) : State := (s.push (s.pc.extractLsb' 8 8)).push (s.pc.extractLsb' 0 8)

/-- `pop_pc()` (R83): low byte first. -/
def popPc (s : State) : State := s.popped.popped.setPc (s.popped.popValue ++ s.popValue)

/-! ### The trap and its return -/

/-- Taking the BRK trap (R173, R226): `PC` high then low and `P` unaltered are pushed, B is set and nothing else of `P`,
and `PC` is loaded from the vector. -/
def takeBreak (s : State) : State :=
  let t := (s.pushPc.push s.psw).setFlag .b true
  t.setPc (t.read16 Config.brkVector)

/-- Returning from the trap (R174, R227): the whole of `P`, then `PC`, from the stack. -/
def returnFromBreak (s : State) : State := (s.popped.setPsw s.popValue).popPc

/-! ### Outcomes of a call -/

/-- OK: the rule's effect, with the accesses it made (R220). -/
def completed (s : State) (bus : List Access) : State := s.setOut { status := .ok, info := none, bus := bus }

/-- NotWritable (R222): nothing is written, the fault mark is not set, and the word is recorded (R223). -/
def notWritable (s : State) (w : IWord) : State := s.setOut { status := .notWritable, info := some w, bus := [] }

/-- ContractViolation (R221): nothing is written and the fault mark is set; the word, if there is one, is recorded (R223;
log 4, log 8). -/
def violated (s : State) (w : Option IWord) : State :=
  s.setFaulted.setOut { status := .contractViolation, info := w, bus := [] }

/-! ### Launch -/

/-- The state created from a launch parameter (R34, R240): bit 5 of `P` is 1 and the fault mark is clear. -/
def launch (i : Init) : State :=
  { a := i.a, x := i.x, y := i.y, sp := i.sp, pc := i.pc, p := restoreByte i.p,
    mem := i.mem.foldl (fun m c => Memory.write m c.1.toNat c.2) [], faulted := false, instr := none, out := Ports.idle }

end State

end Sys2Proof.Machine
end

