-- ==== Sys2Proof/Machine/Operands.lean ====
section
/-! DEFINITION. The address_mode_resolver (41_address_mode_resolver.md R100 to R118): every operand form's effective address, its value, and
the write back through it. -/

namespace Sys2Proof.Machine

/-- An address in page zero (R101). -/
def zeroPageAddr (o : Byte) : Addr := o.setWidth 16

/-- A pointer whose two bytes both lie in page zero, the second slot modulo 256 (R110, R111; C4, D9). -/
def zeroPagePointer (s : State) (t : Byte) : Addr :=
  s.readByte (zeroPageAddr (t + 1)) ++ s.readByte (zeroPageAddr t)

/-- `get_pointer` (R100 to R111). -/
def getPointer (op : Operand) (s : State) : Option Addr :=
  match op with
  | .implicit | .accumulator | .immediate _ => none
  | .zeroPage o => some (zeroPageAddr o)
  | .zeroPageX o => some (zeroPageAddr (s.x + o))
  | .zeroPageY o => some (zeroPageAddr (s.y + o))
  | .relative o => some (s.pc + o.signExtend 16)
  | .absolute a => some a
  | .absoluteX a => some (a + s.x.setWidth 16)
  | .absoluteY a => some (a + s.y.setWidth 16)
  | .indirect a => some (s.read16 a)
  | .indexedIndirect o => some (zeroPagePointer s (o + s.x))
  | .indirectIndexed o => some (zeroPagePointer s o + s.y.setWidth 16)

/-- `get_u8` (R112). -/
def getU8 (op : Operand) (s : State) : Option Byte :=
  match op with
  | .implicit => none
  | .accumulator => some s.a
  | .immediate v => some v
  | _ => (getPointer op s).map s.readByte

/-- The error outcomes a rule can raise (R221, R222). -/
inductive Raise where
  | notWritable
  | contractViolation
  deriving DecidableEq, Repr

/-- What a rule answers before its outcome is reported: the state it leaves, or the outcome it raises. -/
abbrev Effect := Except Raise State

/-- The `writable` output of the resolver (R113, R118; C3). -/
def writable : Operand → Bool
  | .implicit | .immediate _ | .relative _ => false
  | _ => true

/-- `set_u8` (R113): the write back through an operand. -/
def setU8 (op : Operand) (v : Byte) (s : State) : Effect :=
  if writable op then
    match getPointer op s with
    | some a => .ok (s.writeByte a v)
    | none => .ok (s.setA v)
  else .error .notWritable

/-- The outputs of the resolver as a sub-block (R118). -/
structure Resolved where
  /-- `ptr`, present when `ptr_valid` is 1. -/
  ptr : Option Addr
  /-- `val`, present when `val_valid` is 1. -/
  val : Option Byte
  writable : Bool
  deriving DecidableEq, Repr

/-- The address_mode_resolver as a sub-block (R118). -/
def resolve (op : Operand) (s : State) : Resolved :=
  { ptr := getPointer op s, val := getU8 op s, writable := writable op }

/-- A rule that needs the operand's value (R116): with no value it is a contract violation. -/
def withValue (op : Operand) (s : State) (rule : Byte → State) : Effect :=
  match getU8 op s with
  | none => .error .contractViolation
  | some m => .ok (rule m)

/-- A read-modify-write rule (R117, R127 to R132): the operand's value goes through the ALU, the result back to the same
location, and the flags are written from the ALU's outputs. -/
def modify (op : Operand) (s : State) (f : AluOp) : Effect :=
  match getU8 op s with
  | none => .error .contractViolation
  | some v =>
    let o := alu f v 0 (s.flag .c)
    match setU8 op o.r s with
    | .error e => .error e
    | .ok t => .ok (t.setP (aluFlags t.p o))

/-- A rule that takes only Implicit (R180; 43_branch_jump_controller.md R172 to R174). -/
def implicitOnly (op : Operand) (t : State) : Effect :=
  match op with
  | .implicit => .ok t
  | _ => .error .contractViolation

end Sys2Proof.Machine
end

