-- ==== Sys2Proof/Machine/Bus.lean ====
section
/-! DEFINITION. The accesses to memory of one instruction, in the order of 20_memory.md R43 and R44, and the report of a call's
outcome on the output ports (60_exceptions.md R220 to R224). -/

namespace Sys2Proof.Machine

/-- The slots the pointer bytes of a form are read from, in order (R44). -/
def pointerSlots (op : Operand) (s : State) : List Addr :=
  match op with
  | .indirect a => [a, a + 1]
  | .indexedIndirect o => [zeroPageAddr (o + s.x), zeroPageAddr (o + s.x + 1)]
  | .indirectIndexed o => [zeroPageAddr o, zeroPageAddr (o + 1)]
  | _ => []

/-- The classes of R43. -/
inductive AccessClass where
  | operandRead | readModifyWrite | store
  /-- One or more bytes written in the stack page. -/
  | pushes (n : Nat)
  /-- One or more bytes read in the stack page. -/
  | pops (n : Nat)
  | trap | jump | silent
  deriving DecidableEq, Repr

/-- The class of each operation (R43). -/
def accessClass : Operation → AccessClass
  | .adc | .sbc | .and | .ora | .eor | .cmp | .cpx | .cpy | .bit | .lda | .ldx | .ldy => .operandRead
  | .asl | .lsr | .rol | .ror | .inc | .dec => .readModifyWrite
  | .sta | .stx | .sty => .store
  | .pha | .php => .pushes 1
  | .pla | .plp => .pops 1
  | .jsr => .pushes 2
  | .rts => .pops 2
  | .brk => .trap
  | .rti => .pops 3
  | .jmp => .jump
  | .bcc | .bcs | .beq | .bmi | .bne | .bpl | .bvc | .bvs => .silent
  | .clc | .cld | .cli | .clv | .sec | .sed | .sei | .nop => .silent
  | .dex | .dey | .inx | .iny | .tax | .tay | .tsx | .txa | .txs | .tya => .silent

/-- Reads of the given addresses, in order, from the store of `s`. -/
def readsOf (s : State) (as : List Addr) : List Access := as.map fun a => .read a (s.readByte a)

/-- Writes to the given addresses, in order, of the bytes `t` holds there afterwards. -/
def writesOf (t : State) (as : List Addr) : List Access := as.map fun a => .write a (t.readByte a)

/-- The stack slots `n` pushes write, starting at `SP` = `sp` (R80). -/
def pushSlots (sp : Byte) (n : Nat) : List Addr := (List.range n).map fun k => stackSlot (sp - BitVec.ofNat 8 k)

/-- The stack slots `n` pops read, starting at `SP` = `sp` (R81). -/
def popSlots (sp : Byte) (n : Nat) : List Addr := (List.range n).map fun k => stackSlot (sp + 1 + BitVec.ofNat 8 k)

/-- The accesses of one instruction that takes `s` to `t`, in the order of R43. Its writes never overlap, so each written
byte is the one `t` holds; its reads come before its writes, but for the vector reads of BRK, which no push overlaps. -/
def busTrace (o : Operation) (op : Operand) (s t : State) : List Access :=
  match accessClass o with
  | .operandRead => readsOf s (pointerSlots op s) ++ readsOf s (getPointer op s).toList
  | .readModifyWrite =>
    readsOf s (pointerSlots op s) ++ readsOf s (getPointer op s).toList ++ writesOf t (getPointer op s).toList
  | .store => readsOf s (pointerSlots op s) ++ writesOf t (getPointer op s).toList
  | .pushes n => writesOf t (pushSlots s.sp n)
  | .pops n => readsOf s (popSlots s.sp n)
  | .trap => writesOf t (pushSlots s.sp 3) ++ readsOf t [Config.brkVector, Config.brkVector + 1]
  | .jump => readsOf s (pointerSlots op s)
  | .silent => []

/-- One call of `execute` on a decoded instruction (R220), given the effect of its rule. A marked core executes nothing
(R221 item 4); the outcome of the pair is decided before any state is written (R224); and a rule that finds no value or no
location raises the outcome R116 and R113 give it, which over the admitted pairs never happens. -/
def perform (i : Instr) (s : State) (effect : Effect) : Result :=
  if s.faulted then .fault .coreFaulted
  else
    match pairStatus i.operation i.operand.form with
    | .notWritable => .next (s.notWritable (encode i))
    | .contractViolation => .next (s.violated (some (encode i)))
    | .ok =>
      match effect with
      | .ok t => .next (t.completed (busTrace i.operation i.operand s t))
      | .error .notWritable => .next (s.notWritable (encode i))
      | .error .contractViolation => .next (s.violated (some (encode i)))

end Sys2Proof.Machine
end

