-- ==== Sys2Proof/Machine/Arithmetic.lean ====
section
/-! DEFINITION. The 18 operations of alu_8bit (42_alu_8bit.md R120 to R142): one meaning each, over the shared operations. -/

namespace Sys2Proof.Machine

/-- ADC and SBC (R122, R123): `A`, the operand and the carry through the ALU into `A`, with C, V, N and Z. `P.D` is not
read (10_state.md R30). -/
def arithmetic (f : AluOp) (op : Operand) (s : State) : Effect :=
  withValue op s fun m =>
    let o := alu f s.a m (s.flag .c)
    (s.setA o.r).setP (aluFlags s.p o)

/-- AND, ORA, EOR (R124 to R126): `A` and the operand into `A`, with N and Z. -/
def logical (f : AluOp) (op : Operand) (s : State) : Effect :=
  withValue op s fun m =>
    let o := alu f s.a m false
    (s.setA o.r).setP (aluFlags s.p o)

/-- CMP, CPX, CPY (R137 to R139): only flags are written, C, Z and N by R93. -/
def compare (r : Byte) (op : Operand) (s : State) : Effect :=
  withValue op s fun m => s.setP (aluFlags s.p (alu .cmp r m false))

/-- ADC (R122): add with carry. -/
def execAdc (op : Operand) (s : State) : Result := perform (.adc op) s (arithmetic .add op s)

/-- SBC (R123): subtract with borrow, the borrow being the complement of the carry. -/
def execSbc (op : Operand) (s : State) : Result := perform (.sbc op) s (arithmetic .sub op s)

/-- AND (R124): bitwise AND into the accumulator. -/
def execAnd (op : Operand) (s : State) : Result := perform (.and op) s (logical .and op s)

/-- ORA (R125): bitwise inclusive OR into the accumulator. -/
def execOra (op : Operand) (s : State) : Result := perform (.ora op) s (logical .or op s)

/-- EOR (R126): bitwise exclusive OR into the accumulator. -/
def execEor (op : Operand) (s : State) : Result := perform (.eor op) s (logical .xor op s)

/-- ASL (R127): shift left; C takes the old bit 7. -/
def execAsl (op : Operand) (s : State) : Result := perform (.asl op) s (modify op s .shl)

/-- LSR (R128): logical shift right; C takes the old bit 0. -/
def execLsr (op : Operand) (s : State) : Result := perform (.lsr op) s (modify op s .shr)

/-- ROL (R129): rotate left through the carry held before the instruction. -/
def execRol (op : Operand) (s : State) : Result := perform (.rol op) s (modify op s .rol)

/-- ROR (R130): rotate right through the carry held before the instruction. -/
def execRor (op : Operand) (s : State) : Result := perform (.ror op) s (modify op s .ror)

/-- INC (R131): increment a memory byte. -/
def execInc (op : Operand) (s : State) : Result := perform (.inc op) s (modify op s .inc)

/-- DEC (R132): decrement a memory byte. -/
def execDec (op : Operand) (s : State) : Result := perform (.dec op) s (modify op s .dec)

/-- INX (R133): increment X, with N and Z. -/
def execInx (op : Operand) (s : State) : Result :=
  let o := alu .inc s.x 0 false
  perform (.inx op) s (implicitOnly op ((s.setX o.r).setP (aluFlags s.p o)))

/-- INY (R134): increment Y, with N and Z. -/
def execIny (op : Operand) (s : State) : Result :=
  let o := alu .inc s.y 0 false
  perform (.iny op) s (implicitOnly op ((s.setY o.r).setP (aluFlags s.p o)))

/-- DEX (R135): decrement X, with N and Z. -/
def execDex (op : Operand) (s : State) : Result :=
  let o := alu .dec s.x 0 false
  perform (.dex op) s (implicitOnly op ((s.setX o.r).setP (aluFlags s.p o)))

/-- DEY (R136): decrement Y, with N and Z. -/
def execDey (op : Operand) (s : State) : Result :=
  let o := alu .dec s.y 0 false
  perform (.dey op) s (implicitOnly op ((s.setY o.r).setP (aluFlags s.p o)))

/-- CMP (R137): compare the accumulator with the operand. -/
def execCmp (op : Operand) (s : State) : Result := perform (.cmp op) s (compare s.a op s)

/-- CPX (R138): compare X with the operand. -/
def execCpx (op : Operand) (s : State) : Result := perform (.cpx op) s (compare s.x op s)

/-- CPY (R139): compare Y with the operand. -/
def execCpy (op : Operand) (s : State) : Result := perform (.cpy op) s (compare s.y op s)

end Sys2Proof.Machine
end

