-- ==== Sys2Proof/Machine/Control.lean ====
section
/-! DEFINITION. The 13 operations of branch_jump_controller (43_branch_jump_controller.md R160 to R175): one meaning each. When a meaning
runs, `PC` already holds the address of the next instruction (10_state.md R24). -/

namespace Sys2Proof.Machine

/-- The body of every branch (R161): `PC` goes to the resolved target when the flag has the wanted value, else it stays. -/
def branch (f : Flag) (want : Bool) (op : Operand) (s : State) : Effect :=
  match op with
  | .relative _ =>
    match getPointer op s with
    | some t => .ok (if s.flag f = want then s.setPc t else s)
    | none => .error .contractViolation
  | _ => .error .contractViolation

/-- The body of JMP (R170): `PC` goes to the operand's address. -/
def jump (op : Operand) (s : State) : Effect :=
  match op with
  | .absolute _ | .indirect _ =>
    match getPointer op s with
    | some t => .ok (s.setPc t)
    | none => .error .contractViolation
  | _ => .error .contractViolation

/-- The body of JSR (R171): `PC` as it stands is pushed, then `PC` goes to the operand's address. -/
def call (op : Operand) (s : State) : Effect :=
  match op with
  | .absolute _ =>
    match getPointer op s with
    | some t => .ok (s.pushPc.setPc t)
    | none => .error .contractViolation
  | _ => .error .contractViolation

/-- BCC (R162): branch if carry clear. -/
def execBcc (op : Operand) (s : State) : Result := perform (.bcc op) s (branch .c false op s)

/-- BCS (R163): branch if carry set. -/
def execBcs (op : Operand) (s : State) : Result := perform (.bcs op) s (branch .c true op s)

/-- BEQ (R164): branch if Z set. -/
def execBeq (op : Operand) (s : State) : Result := perform (.beq op) s (branch .z true op s)

/-- BNE (R165): branch if Z clear. -/
def execBne (op : Operand) (s : State) : Result := perform (.bne op) s (branch .z false op s)

/-- BMI (R166): branch if N set. -/
def execBmi (op : Operand) (s : State) : Result := perform (.bmi op) s (branch .n true op s)

/-- BPL (R167): branch if N clear. -/
def execBpl (op : Operand) (s : State) : Result := perform (.bpl op) s (branch .n false op s)

/-- BVC (R168): branch if overflow clear. -/
def execBvc (op : Operand) (s : State) : Result := perform (.bvc op) s (branch .v false op s)

/-- BVS (R169): branch if overflow set. -/
def execBvs (op : Operand) (s : State) : Result := perform (.bvs op) s (branch .v true op s)

/-- JMP (R170): jump. -/
def execJmp (op : Operand) (s : State) : Result := perform (.jmp op) s (jump op s)

/-- JSR (R171): jump to subroutine. -/
def execJsr (op : Operand) (s : State) : Result := perform (.jsr op) s (call op s)

/-- RTS (R172): return from subroutine; the popped value is not adjusted. -/
def execRts (op : Operand) (s : State) : Result := perform (.rts op) s (implicitOnly op s.popPc)

/-- BRK (R173): software interrupt. -/
def execBrk (op : Operand) (s : State) : Result := perform (.brk op) s (implicitOnly op s.takeBreak)

/-- RTI (R174): return from interrupt. -/
def execRti (op : Operand) (s : State) : Result := perform (.rti op) s (implicitOnly op s.returnFromBreak)

end Sys2Proof.Machine
end

