-- ==== Sys2Proof/Machine/Data.lean ====
section
/-! DEFINITION. The 25 remaining operations (44_control_data.md R180 to R205): flag, load, store, transfer, stack, BIT and NOP, one
meaning each. None of them changes `PC`. -/

namespace Sys2Proof.Machine

/-- The body of the seven flag instructions (R180). -/
def flagRule (f : Flag) (b : Bool) (op : Operand) (s : State) : Effect := implicitOnly op (s.setFlag f b)

/-- A byte put into a register with N and Z from it: the loads, TAX, TXA, TAY, TYA and PLA (R188 to R190, R194 to R197,
R201). `t` is the state with the register written. -/
def withNZ (t : State) (v : Byte) : State := t.setP (setNZ t.p v)

/-- CLC (R181): clear C. -/
def execClc (op : Operand) (s : State) : Result := perform (.clc op) s (flagRule .c false op s)

/-- SEC (R182): set C. -/
def execSec (op : Operand) (s : State) : Result := perform (.sec op) s (flagRule .c true op s)

/-- CLI (R183): clear I. -/
def execCli (op : Operand) (s : State) : Result := perform (.cli op) s (flagRule .i false op s)

/-- SEI (R184): set I. -/
def execSei (op : Operand) (s : State) : Result := perform (.sei op) s (flagRule .i true op s)

/-- CLV (R185): clear V. -/
def execClv (op : Operand) (s : State) : Result := perform (.clv op) s (flagRule .v false op s)

/-- CLD (R186): clear D. -/
def execCld (op : Operand) (s : State) : Result := perform (.cld op) s (flagRule .d false op s)

/-- SED (R187): set D. -/
def execSed (op : Operand) (s : State) : Result := perform (.sed op) s (flagRule .d true op s)

/-- LDA (R188): load A. -/
def execLda (op : Operand) (s : State) : Result := perform (.lda op) s (withValue op s fun m => withNZ (s.setA m) m)

/-- LDX (R189): load X. -/
def execLdx (op : Operand) (s : State) : Result := perform (.ldx op) s (withValue op s fun m => withNZ (s.setX m) m)

/-- LDY (R190): load Y. -/
def execLdy (op : Operand) (s : State) : Result := perform (.ldy op) s (withValue op s fun m => withNZ (s.setY m) m)

/-- STA (R191): store A; no flag. -/
def execSta (op : Operand) (s : State) : Result := perform (.sta op) s (setU8 op s.a s)

/-- STX (R192): store X; no flag. -/
def execStx (op : Operand) (s : State) : Result := perform (.stx op) s (setU8 op s.x s)

/-- STY (R193): store Y; no flag. -/
def execSty (op : Operand) (s : State) : Result := perform (.sty op) s (setU8 op s.y s)

/-- TAX (R194): A into X, with N and Z. -/
def execTax (op : Operand) (s : State) : Result := perform (.tax op) s (implicitOnly op (withNZ (s.setX s.a) s.a))

/-- TXA (R195): X into A, with N and Z. -/
def execTxa (op : Operand) (s : State) : Result := perform (.txa op) s (implicitOnly op (withNZ (s.setA s.x) s.x))

/-- TAY (R196): A into Y, with N and Z. -/
def execTay (op : Operand) (s : State) : Result := perform (.tay op) s (implicitOnly op (withNZ (s.setY s.a) s.a))

/-- TYA (R197): Y into A, with N and Z. -/
def execTya (op : Operand) (s : State) : Result := perform (.tya op) s (implicitOnly op (withNZ (s.setA s.y) s.y))

/-- TXS (R198): X into SP; no flag. -/
def execTxs (op : Operand) (s : State) : Result := perform (.txs op) s (implicitOnly op (s.setSp s.x))

/-- TSX (R199): SP into X; no flag. -/
def execTsx (op : Operand) (s : State) : Result := perform (.tsx op) s (implicitOnly op (s.setX s.sp))

/-- PHA (R200): push A. -/
def execPha (op : Operand) (s : State) : Result := perform (.pha op) s (implicitOnly op (s.push s.a))

/-- PLA (R201): pop A, with N and Z. -/
def execPla (op : Operand) (s : State) : Result := perform (.pla op) s (implicitOnly op (withNZ (s.popped.setA s.popValue) s.popValue))

/-- PHP (R202): push P unaltered (40_stack_and_flags.md R94). -/
def execPhp (op : Operand) (s : State) : Result := perform (.php op) s (implicitOnly op (s.push s.psw))

/-- PLP (R203): pop P, all seven flags (10_state.md R28). -/
def execPlp (op : Operand) (s : State) : Result := perform (.plp op) s (implicitOnly op (s.popped.setPsw s.popValue))

/-- BIT (R204): test bits of memory against the accumulator; only Z, N and V are written. -/
def execBit (op : Operand) (s : State) : Result := perform (.bit op) s (withValue op s fun m => s.setP (bitFlags s.p s.a m))

/-- NOP (R205): nothing happens. -/
def execNop (op : Operand) (s : State) : Result := perform (.nop op) s (implicitOnly op s)

end Sys2Proof.Machine
end

