-- ==== Sys2Proof/Machine/Dispatch.lean ====
section
/-! DEFINITION. The dispatch of a decoded instruction to its meaning, one arm per constructor ("routing to the appropriate ALU/Control
handler by operation tag", 60_exceptions.md R220). -/

namespace Sys2Proof.Machine
open Sys2Proof

def exec (i : Instr) (s : State) : Host.Outcome State Fault Refusal :=
  match i with
  | .adc op => Sys2Proof.Machine.execAdc op s
  | .and op => Sys2Proof.Machine.execAnd op s
  | .asl op => Sys2Proof.Machine.execAsl op s
  | .bcc op => Sys2Proof.Machine.execBcc op s
  | .bcs op => Sys2Proof.Machine.execBcs op s
  | .beq op => Sys2Proof.Machine.execBeq op s
  | .bit op => Sys2Proof.Machine.execBit op s
  | .bmi op => Sys2Proof.Machine.execBmi op s
  | .bne op => Sys2Proof.Machine.execBne op s
  | .bpl op => Sys2Proof.Machine.execBpl op s
  | .brk op => Sys2Proof.Machine.execBrk op s
  | .bvc op => Sys2Proof.Machine.execBvc op s
  | .bvs op => Sys2Proof.Machine.execBvs op s
  | .clc op => Sys2Proof.Machine.execClc op s
  | .cld op => Sys2Proof.Machine.execCld op s
  | .cli op => Sys2Proof.Machine.execCli op s
  | .clv op => Sys2Proof.Machine.execClv op s
  | .cmp op => Sys2Proof.Machine.execCmp op s
  | .cpx op => Sys2Proof.Machine.execCpx op s
  | .cpy op => Sys2Proof.Machine.execCpy op s
  | .dec op => Sys2Proof.Machine.execDec op s
  | .dex op => Sys2Proof.Machine.execDex op s
  | .dey op => Sys2Proof.Machine.execDey op s
  | .eor op => Sys2Proof.Machine.execEor op s
  | .inc op => Sys2Proof.Machine.execInc op s
  | .inx op => Sys2Proof.Machine.execInx op s
  | .iny op => Sys2Proof.Machine.execIny op s
  | .jmp op => Sys2Proof.Machine.execJmp op s
  | .jsr op => Sys2Proof.Machine.execJsr op s
  | .lda op => Sys2Proof.Machine.execLda op s
  | .ldx op => Sys2Proof.Machine.execLdx op s
  | .ldy op => Sys2Proof.Machine.execLdy op s
  | .lsr op => Sys2Proof.Machine.execLsr op s
  | .nop op => Sys2Proof.Machine.execNop op s
  | .ora op => Sys2Proof.Machine.execOra op s
  | .pha op => Sys2Proof.Machine.execPha op s
  | .php op => Sys2Proof.Machine.execPhp op s
  | .pla op => Sys2Proof.Machine.execPla op s
  | .plp op => Sys2Proof.Machine.execPlp op s
  | .rol op => Sys2Proof.Machine.execRol op s
  | .ror op => Sys2Proof.Machine.execRor op s
  | .rti op => Sys2Proof.Machine.execRti op s
  | .rts op => Sys2Proof.Machine.execRts op s
  | .sbc op => Sys2Proof.Machine.execSbc op s
  | .sec op => Sys2Proof.Machine.execSec op s
  | .sed op => Sys2Proof.Machine.execSed op s
  | .sei op => Sys2Proof.Machine.execSei op s
  | .sta op => Sys2Proof.Machine.execSta op s
  | .stx op => Sys2Proof.Machine.execStx op s
  | .sty op => Sys2Proof.Machine.execSty op s
  | .tax op => Sys2Proof.Machine.execTax op s
  | .tay op => Sys2Proof.Machine.execTay op s
  | .tsx op => Sys2Proof.Machine.execTsx op s
  | .txa op => Sys2Proof.Machine.execTxa op s
  | .txs op => Sys2Proof.Machine.execTxs op s
  | .tya op => Sys2Proof.Machine.execTya op s

end Sys2Proof.Machine
end

