-- ==== Sys2Proof/Machine/Execute.lean ====
section
/-! DEFINITION. The block's entry point `execute` on an interface word (60_exceptions.md R220, R224), the reference dispatcher that
fetches at `PC` (70_reset_and_hazards.md R247), and which of the two makes the next call (log 6). -/

namespace Sys2Proof.Machine

/-- `execute` on an interface word (R220). A malformed word is a contract violation that records the word (R221, R223,
R224 step 1); on a marked core every call is refused (R224 step 2). -/
def execute (w : IWord) (s : State) : Result :=
  if s.faulted then .fault .coreFaulted
  else
    match decode w with
    | .ok i => exec i s
    | .error _ => .next (s.violated (some w))

/-- The interface word and the length of the instruction at `PC` (R247). The fetch reads the same store as the core (R53)
and is no access of the core's (R247). -/
def fetch (s : State) : Option (IWord × Nat) :=
  streamWord (s.readByte s.pc) (s.readByte (s.pc + 1)) (s.readByte (s.pc + 2))

/-- One step of the reference dispatcher (R247), which has no `HALT_PC` of its own (R248; log 12). -/
def dispatchStep (s : State) : Result :=
  if s.faulted then .fault .coreFaulted
  else
    match fetch s with
    | none => .next (s.violated none)
    | some (w, n) => execute w (s.setPc (s.pc + BitVec.ofNat 16 n))

/-- The next call: on the word the host offers on `instr`, which the call takes, or else through the dispatcher (log 6). -/
def nextCall (s : State) : Result :=
  match s.instr with
  | some w => execute w (s.setInstr none)
  | none => dispatchStep s

/-- The host puts an interface word on `instr`, having advanced `PC` itself (R236). -/
def offer (s : State) (w : IWord) : State := s.setInstr (some w)

end Sys2Proof.Machine
end

