-- ==== Sys2Proof/Machine/Step.lean ====
section
/-! DEFINITION. One step: one call of `execute` (00_scope.md R6, 70_reset_and_hazards.md R246), and how a word is placed for the next one. -/

namespace Sys2Proof.Machine

/-- One step of the machine: the next call of `execute`. -/
def step (s : State) : Host.Outcome State Fault Refusal := nextCall s

/-- `s` with the row's interface word on the `instr` port, where the next step takes its instruction (log 6). -/
def State.withFetchWord (s : State) (_nbits w : Nat) : State := offer s (BitVec.ofNat 32 w)

end Sys2Proof.Machine
end

