-- ==== Sys2Proof/Machine/Harness.lean ====
section
/-! DEFINITION. The end of a run of the reference dispatcher (70_reset_and_hazards.md R248), outside the block: the core never stops by
itself, so the halt address and the step budget are arguments (log 12). -/

namespace Sys2Proof.Machine

/-- The three ways a run ends (R248). -/
inductive RunEnd where
  /-- `PC` equals `HALT_PC` before a fetch. The only final state. -/
  | halted (s : State)
  /-- The fault mark is set. Not a final state. -/
  | faulted (s : State)
  /-- The budget ran out. It says nothing. -/
  | outOfFuel (s : State)
  deriving DecidableEq, Repr

/-- A run of the dispatcher with a budget of steps (R247, R248): the fault mark is looked at first, then `HALT_PC`. -/
def runUntil (haltPc : Addr) : Nat → State → RunEnd
  | 0, s => if s.faulted then .faulted s else if s.pc = haltPc then .halted s else .outOfFuel s
  | n + 1, s =>
    if s.faulted then .faulted s
    else if s.pc = haltPc then .halted s
    else
      match dispatchStep s with
      | .next t => runUntil haltPc n t
      | .fault _ => .faulted s
      | .refused _ => .faulted s

end Sys2Proof.Machine
end

