-- ==== Sys2Proof/Machine/HostAccess.lean ====
section
/-! DEFINITION. The host's direct accessors (10_state.md R33; 60_exceptions.md R233, R236), which act between two calls of `execute`. -/

namespace Sys2Proof.Machine

/-- What the host may write between two calls (R33, R236). There is no accessor for bit 5 of `P`, and none for the fault
mark. -/
inductive HostWrite where
  | a (v : Byte) | x (v : Byte) | y (v : Byte) | sp (v : Byte)
  | pc (t : Addr)
  | flag (f : Flag) (b : Bool)
  /-- A whole byte into `P`: bit 5 stays 1. -/
  | psw (v : Byte)
  | byte (addr : Addr) (v : Byte)
  /-- An interface word put on the `instr` port for the next call (R236). -/
  | instr (w : IWord)
  deriving DecidableEq, Repr

/-- What the host may read between two calls (R33). -/
inductive HostRead where
  | a | x | y | sp | pc | flag (f : Flag) | psw | byte (addr : Addr)
  deriving DecidableEq, Repr

/-- The effect of a host write (R33). -/
def applyHostWrite (h : HostWrite) (s : State) : State :=
  match h with
  | .a v => s.setA v
  | .x v => s.setX v
  | .y v => s.setY v
  | .sp v => s.setSp v
  | .pc t => s.setPc t
  | .flag f b => s.setFlag f b
  | .psw v => s.setPsw v
  | .byte addr v => s.writeByte addr v
  | .instr w => offer s w

/-- A host write between two calls; after a contract violation the host may touch nothing (R236; log 9). -/
def hostWrite (h : HostWrite) (s : State) : Option State := if s.faulted then none else some (applyHostWrite h s)

/-- A host read between two calls, zero-extended to 16 bits; a flag reads as 0 or 1 (R33, R89). -/
def hostRead (h : HostRead) (s : State) : BitVec 16 :=
  match h with
  | .a => s.a.setWidth 16
  | .x => s.x.setWidth 16
  | .y => s.y.setWidth 16
  | .sp => s.sp.setWidth 16
  | .pc => s.pc
  | .flag f => (BitVec.ofBool (s.flag f)).setWidth 16
  | .psw => s.psw.setWidth 16
  | .byte addr => (s.readByte addr).setWidth 16

end Sys2Proof.Machine
end

