-- ==== Sys2Proof/Safety.lean ====
section
/-! DEFINITION. The terms claims use: which states and answers are safe, the invariant of the machine, what an instruction
leaves unchanged, and the replay of a call's accesses. -/

namespace Sys2Proof.Machine

/-- A state a claim may end in: a marked core is a fault, never a final state (60_exceptions.md R221; log 4). -/
def State.safe (s : State) : Bool := !s.faulted

/-- The `status` output a caller sees from an answer: a call on a marked core returns 2 (60_exceptions.md R221, R235). -/
def statusOf : Result → Status
  | .next t => t.out.status
  | .fault _ => .contractViolation
  | .refused _ => .contractViolation

/-- What every reachable state meets: memory is in canonical form, the stored bit 5 of `P` is 1 (10_state.md R26), and a
marked core shows status 2 (60_exceptions.md R221). -/
structure State.Inv (s : State) : Prop where
  memory : s.mem.wf
  bit5 : s.p[5] = true
  marked : s.faulted = true → s.out.status = .contractViolation

/-- The 8-bit registers that are not `P` (10_state.md R20). -/
inductive RegName where
  | a | x | y | sp
  deriving DecidableEq, Repr

/-- The register of that name. -/
def State.reg (s : State) : RegName → Byte
  | .a => s.a
  | .x => s.x
  | .y => s.y
  | .sp => s.sp

/-- The frame of an instruction that may write the registers `rs`, the flags `fs` and the bytes at `as`: every other
register, flag and byte, bit 5 of `P`, the fault mark and the input port are as they were. `PC` is said beside it. -/
structure Frame (rs : List RegName) (fs : List Flag) (as : List Addr) (s t : State) : Prop where
  regs : ∀ r, r ∉ rs → t.reg r = s.reg r
  flags : ∀ f, f ∉ fs → t.flag f = s.flag f
  bit5 : t.p[5] = s.p[5]
  bytes : ∀ a, a ∉ as → t.readByte a = s.readByte a
  mark : t.faulted = s.faulted
  port : t.instr = s.instr

/-- The registers other than `P` are as they were (10_state.md R20). -/
structure SameRegs (s t : State) : Prop where
  a : t.a = s.a
  x : t.x = s.x
  y : t.y = s.y
  sp : t.sp = s.sp
  pc : t.pc = s.pc

/-- The instruction completes with status OK and leaves `t` (60_exceptions.md R220, R235). -/
structure Completes (i : Instr) (s t : State) : Prop where
  answer : exec i s = .next t
  status : t.out.status = .ok
  info : t.out.info = none

/-- One access replayed on a store: a write takes effect, a read leaves it. -/
def replayAccess (m : Memory) : Access → Memory
  | .read _ _ => m
  | .write a v => m.write a.toNat v

/-- A list of accesses agrees with a store: every read returns the value of the latest earlier write (20_memory.md R50). -/
def accessesAgree : Memory → List Access → Prop
  | _, [] => True
  | m, .read a v :: rest => m.read a.toNat = v ∧ accessesAgree m rest
  | m, .write a v :: rest => accessesAgree (m.write a.toNat v) rest

/-- Whether an access is a write, and its address: `mem_we` and `mem_addr` (60_exceptions.md R220). -/
def Access.port : Access → Bool × Addr
  | .read a _ => (false, a)
  | .write a _ => (true, a)

end Sys2Proof.Machine
end

