-- ==== Sys2Proof/Certificates/Slice0/Obligations.lean ====
section
/-! DEFINITION. The statements for the provers. Each docstring names the rules of spec/ it rests on; where a clause rests on
a choice of the model's own, or on one the spec marks as its own, the docstring names its log entry or the decision. -/

namespace Sys2Proof.Claims
open Sys2Proof.Machine

/-! ### Shapes several statements share -/

/-- The instruction is admitted and the core is not marked: the conditions of step 3 of R224. -/
abbrev Runs (i : Instr) (s : State) : Prop := s.faulted = false ∧ i.wellFormed = true

/-- N and Z of `t` are those of the byte `v` (R90). -/
abbrev NZOf (t : State) (v : Byte) : Prop := t.flag .n = v.getLsbD 7 ∧ t.flag .z = decide (v = 0)

/-- ContractViolation of R221, items 1 to 3, in the next state and status that R220 puts out: status 2, the fault mark set, no
register, flag or byte written. -/
def RaisesViolation (i : Instr) (s : State) : Prop :=
  ∃ t, exec i s = .next t ∧ t.out.status = .contractViolation ∧ t.faulted = true ∧ SameRegs s t ∧ t.p = s.p ∧ t.mem = s.mem

/-- NotWritable of R222: status 1, the fault mark not set, no register, flag or byte written. -/
def RaisesNotWritable (i : Instr) (s : State) : Prop :=
  ∃ t, exec i s = .next t ∧ t.out.status = .notWritable ∧ t.faulted = false ∧ SameRegs s t ∧ t.p = s.p ∧ t.mem = s.mem

/-- The Encoding and Exceptions lines of an instruction's rule: its tag; the operand forms it takes; NotWritable for the
forms its rule names, and ContractViolation for every other form it does not take. -/
def TakesForms (i : Operand → Instr) (tag : Nat) (forms unwritable : List Form) : Prop :=
  ∀ op s, s.faulted = false →
    (i op).operation.tag.toNat = tag ∧ ((i op).wellFormed = true ↔ op.form ∈ forms) ∧
    (op.form ∈ unwritable → RaisesNotWritable (i op) s) ∧
    (op.form ∉ forms → op.form ∉ unwritable → RaisesViolation (i op) s)

/-- The forms of ADC, SBC, AND, ORA, EOR, CMP and LDA. -/
def valueForms : List Form :=
  [.immediate, .zeroPage, .zeroPageX, .absolute, .absoluteX, .absoluteY, .indexedIndirect, .indirectIndexed]

/-- The memory forms of INC and DEC; the shifts and rotates take Accumulator as well. -/
def modifyForms : List Form := [.zeroPage, .zeroPageX, .absolute, .absoluteX]

/-- AND, ORA, EOR: `A` becomes `f A m`, N and Z follow it, nothing else changes. -/
def LogicalRule (i : Operand → Instr) (tag : Nat) (f : Byte → Byte → Byte) : Prop :=
  TakesForms i tag valueForms [] ∧
  ∀ op s, Runs (i op) s → ∃ m t, getU8 op s = some m ∧ Completes (i op) s t ∧
    t.a = f s.a m ∧ NZOf t (f s.a m) ∧ Frame [.a] [.n, .z] [] s t ∧ t.pc = s.pc

/-- A read-modify-write instruction: the operand's byte `v` becomes `f v`, given the old carry, at the location it was read
from; C becomes `c v` where the rule writes C; N and Z follow the result. -/
def ModifyRule (i : Operand → Instr) (tag : Nat) (forms : List Form) (f : Byte → Bool → Byte) (c : Option (Byte → Bool)) :
    Prop :=
  TakesForms i tag forms [.immediate, .relative] ∧
  ∀ op s, Runs (i op) s → ∃ v t, getU8 op s = some v ∧ Completes (i op) s t ∧
    (∀ a, getPointer op s = some a → t.readByte a = f v (s.flag .c) ∧ t.a = s.a) ∧
    (getPointer op s = none → op = .accumulator ∧ t.a = f v (s.flag .c)) ∧
    NZOf t (f v (s.flag .c)) ∧ (∀ g, c = some g → t.flag .c = g v) ∧
    Frame (if getPointer op s = none then [.a] else []) (if c.isSome then [.n, .z, .c] else [.n, .z])
      (getPointer op s).toList s t ∧ t.pc = s.pc

/-- INX, INY, DEX, DEY: the register becomes `f` of itself, N and Z follow it. -/
def StepRegisterRule (i : Operand → Instr) (tag : Nat) (r : RegName) (f : Byte → Byte) : Prop :=
  TakesForms i tag [.implicit] [] ∧
  ∀ op s, Runs (i op) s → ∃ t, Completes (i op) s t ∧ t.reg r = f (s.reg r) ∧ NZOf t (f (s.reg r)) ∧
    Frame [r] [.n, .z] [] s t ∧ t.pc = s.pc

/-- CMP, CPX, CPY: C is the unsigned comparison, Z equality, N bit 7 of the wrapped difference; nothing else changes. -/
def CompareRule (i : Operand → Instr) (tag : Nat) (forms : List Form) (r : RegName) : Prop :=
  TakesForms i tag forms [] ∧
  ∀ op s, Runs (i op) s → ∃ m t, getU8 op s = some m ∧ Completes (i op) s t ∧
    (t.flag .c = true ↔ m.toNat ≤ (s.reg r).toNat) ∧ (t.flag .z = true ↔ s.reg r = m) ∧
    t.flag .n = (s.reg r - m).getLsbD 7 ∧ Frame [] [.n, .z, .c] [] s t ∧ t.pc = s.pc

/-- A branch on a flag's value: `PC` goes to `PC` plus the signed offset, modulo 65536, when the flag has the value, and
stays otherwise; nothing else changes. -/
def BranchRule (i : Operand → Instr) (tag : Nat) (f : Flag) (want : Bool) : Prop :=
  TakesForms i tag [.relative] [] ∧
  ∀ o s, s.faulted = false → ∃ t, Completes (i (.relative o)) s t ∧
    (s.flag f = want → (t.pc.toNat : Int) = ((s.pc.toNat : Int) + o.toInt) % 65536) ∧
    (s.flag f ≠ want → t.pc = s.pc) ∧ Frame [] [] [] s t

/-- A flag instruction: exactly the named flag is written. -/
def FlagRule (i : Operand → Instr) (tag : Nat) (f : Flag) (b : Bool) : Prop :=
  TakesForms i tag [.implicit] [] ∧
  ∀ op s, Runs (i op) s → ∃ t, Completes (i op) s t ∧ t.flag f = b ∧ Frame [] [f] [] s t ∧ t.pc = s.pc

/-- A load: the register becomes the operand's value, N and Z follow it. -/
def LoadRule (i : Operand → Instr) (tag : Nat) (forms : List Form) (r : RegName) : Prop :=
  TakesForms i tag forms [] ∧
  ∀ op s, Runs (i op) s → ∃ m t, getU8 op s = some m ∧ Completes (i op) s t ∧ t.reg r = m ∧ NZOf t m ∧
    Frame [r] [.n, .z] [] s t ∧ t.pc = s.pc

/-- A store: the register's byte stands at the effective address, which `getPointer` gives, and nothing else changes. -/
def StoreRule (i : Operand → Instr) (tag : Nat) (forms : List Form) (r : RegName) : Prop :=
  TakesForms i tag forms [.implicit, .immediate, .relative] ∧
  ∀ op s, Runs (i op) s → ∃ a t, getPointer op s = some a ∧ Completes (i op) s t ∧ t.readByte a = s.reg r ∧
    Frame [] [] [a] s t ∧ t.pc = s.pc

/-- A transfer with N and Z. -/
def TransferRule (i : Operand → Instr) (tag : Nat) (src dst : RegName) : Prop :=
  TakesForms i tag [.implicit] [] ∧
  ∀ op s, Runs (i op) s → ∃ t, Completes (i op) s t ∧ t.reg dst = s.reg src ∧ NZOf t (s.reg src) ∧
    Frame [dst] [.n, .z] [] s t ∧ t.pc = s.pc

/-- A transfer that writes no flag. -/
def SilentTransferRule (i : Operand → Instr) (tag : Nat) (src dst : RegName) : Prop :=
  TakesForms i tag [.implicit] [] ∧
  ∀ op s, Runs (i op) s → ∃ t, Completes (i op) s t ∧ t.reg dst = s.reg src ∧ Frame [dst] [] [] s t ∧ t.pc = s.pc

end Sys2Proof.Claims

open Sys2Proof Sys2Proof.Machine Sys2Proof.Claims

/-! ### Launch, reset and the invariant -/

/-- R240: every register, flag and byte of memory is what the launch parameter says, bit 5 of `P` is 1 and the fault mark
is clear. That the launch memory is a list of pairs, of which the last for an address counts, is the model's choice (log 17). -/
def Obligations.LaunchTakesItsParameter : Prop :=
  ∀ i : Init, (State.launch i).a = i.a ∧ (State.launch i).x = i.x ∧ (State.launch i).y = i.y ∧
    (State.launch i).sp = i.sp ∧ (State.launch i).pc = i.pc ∧
    (∀ f, (State.launch i).flag f = getFlag i.p f) ∧ (State.launch i).p[5] = true ∧
    (State.launch i).faulted = false ∧
    (∀ a v, i.mem.reverse.find? (fun c => c.1 == a) = some (a, v) → (State.launch i).readByte a = v)

/-- R35: after creation bit 5 of `P` is 1 and the fault mark is clear. The zero registers and the zero bytes are the model's
choice (log 2, log 3), one launch of R240. -/
def Obligations.ResetValues : Prop :=
  State.reset = State.launch { a := 0, x := 0, y := 0, sp := 0, pc := 0, p := 0, mem := [] } ∧
    State.reset.psw = 0x20 ∧ State.reset.faulted = false ∧ ∀ a, State.reset.readByte a = 0

/-- The invariant holds after reset and after every launch (R26, R240). -/
def Obligations.LaunchMeetsTheInvariant : Prop := State.reset.Inv ∧ ∀ i : Init, (State.launch i).Inv

/-- Every step keeps the invariant: memory in canonical form, bit 5 of `P` at 1 (R26), a marked core at status 2 (R221). -/
def Obligations.StepKeepsTheInvariant : Prop := ∀ s t, s.Inv → step s = .next t → t.Inv

/-- R26, R33: a host write between two calls keeps the invariant, so it cannot clear bit 5 of `P`, and it cannot set or clear
the fault mark. That it has no effect on a marked core is R236 (log 9). -/
def Obligations.HostWritesKeepTheInvariant : Prop :=
  ∀ h s, s.Inv → (s.faulted = true → hostWrite h s = none) ∧
    (s.faulted = false → ∃ t, hostWrite h s = some t ∧ t.Inv ∧ t.faulted = false)

/-- R33: what the host writes it reads back; a flag write changes that flag alone; a whole byte into `P` reads back with
bit 5 at 1; a byte of memory changes alone. -/
def Obligations.HostReadsWhatItWrote : Prop :=
  ∀ s, s.faulted = false →
    (∀ v : Byte, ∃ t, hostWrite (.a v) s = some t ∧ hostRead .a t = v.setWidth 16 ∧ Frame [.a] [] [] s t ∧ t.pc = s.pc) ∧
    (∀ v : Byte, ∃ t, hostWrite (.x v) s = some t ∧ hostRead .x t = v.setWidth 16 ∧ Frame [.x] [] [] s t ∧ t.pc = s.pc) ∧
    (∀ v : Byte, ∃ t, hostWrite (.y v) s = some t ∧ hostRead .y t = v.setWidth 16 ∧ Frame [.y] [] [] s t ∧ t.pc = s.pc) ∧
    (∀ v : Byte, ∃ t, hostWrite (.sp v) s = some t ∧ hostRead .sp t = v.setWidth 16 ∧ Frame [.sp] [] [] s t ∧ t.pc = s.pc) ∧
    (∀ v : Addr, ∃ t, hostWrite (.pc v) s = some t ∧ hostRead .pc t = v ∧ Frame [] [] [] s t) ∧
    (∀ f b, ∃ t, hostWrite (.flag f b) s = some t ∧ hostRead (.flag f) t = (if b then 1 else 0) ∧
      Frame [] [f] [] s t ∧ t.pc = s.pc) ∧
    (∀ v : Byte, ∃ t, hostWrite (.psw v) s = some t ∧ hostRead .psw t = (v ||| 0x20).setWidth 16 ∧ SameRegs s t ∧
      ∀ a, t.readByte a = s.readByte a) ∧
    (∀ a v, ∃ t, hostWrite (.byte a v) s = some t ∧ hostRead (.byte a) t = v.setWidth 16 ∧
      Frame [] [] [a] s t ∧ t.pc = s.pc)

/-! ### Encoding -/

/-- R60 to R65: no bit of an encoding is dropped. Every instruction, with every operand value, decodes from its word. -/
def Obligations.DecodeOfEncodeIsTheInstruction : Prop := ∀ i : Instr, decode (encode i) = .ok i

/-- R60, R63, R67: each word that decodes is the word of the instruction it decodes to, so no two words carry one
instruction. -/
def Obligations.EncodeOfDecodeIsTheWord : Prop := ∀ w i, decode w = .ok i → encode i = w

/-- R63 checks 1 to 4: a word decodes exactly when its tag is 0..55, its form 0..12, bits 21:16 are 0 and the payload bits
the form does not use are 0. -/
def Obligations.DecodeAcceptsExactlyTheFourChecks : Prop :=
  ∀ w : IWord, (∃ i, decode w = .ok i) ↔
    (w.toNat / 2 ^ 26 ≤ 55 ∧ w.toNat / 2 ^ 22 % 16 ≤ 12 ∧ w.toNat / 2 ^ 16 % 64 = 0 ∧
      (w.toNat / 2 ^ 22 % 16 ≤ 1 → w.toNat % 2 ^ 16 = 0) ∧
      ((2 ≤ w.toNat / 2 ^ 22 % 16 ∧ w.toNat / 2 ^ 22 % 16 ≤ 6 ∨ 11 ≤ w.toNat / 2 ^ 22 % 16) →
        w.toNat / 2 ^ 8 % 2 ^ 8 = 0))

/-- R62, R65: words written out from the encoding of each family decode to the instruction they stand for. -/
def Obligations.SampleWordsDecode : Prop :=
  decode 0x00800001 = .ok (.adc (.immediate 0x01)) ∧ decode 0xA10000F0 = .ok (.ror (.zeroPageX 0xF0)) ∧
    decode 0x0D8000FB = .ok (.bcc (.relative 0xFB)) ∧ decode 0x6E8002FF = .ok (.jmp (.indirect 0x02FF)) ∧
    decode 0x28000000 = .ok (.brk .implicit) ∧ decode 0x77000040 = .ok (.lda (.indirectIndexed 0x40)) ∧
    decode 0xBEC00010 = .ok (.sta (.indexedIndirect 0x10)) ∧ decode 0xDC000000 = .ok (.tya .implicit) ∧
    decode 0xE0000000 = .error .reservedOperation ∧ decode 0x03400000 = .error .reservedMode ∧
    decode 0x00810000 = .error .reservedBits ∧ decode 0x00800100 = .error .unusedPayload

/-- R64, R68, R70: 151 pairs are admitted, and exactly 105 byte values have no row. -/
def Obligations.TheTableHasItsRows : Prop :=
  (Operation.all.map fun o => (Form.all.filter fun f => admits o f).length).sum = 151 ∧
    ((List.range 256).filter fun b => (byteRow (BitVec.ofNat 8 b)).isNone).length = 105

/-- R69, R247: the bytes of an admitted instruction are as many as its form's length, and any three bytes that begin with
them are read by the dispatcher as the instruction's word and that length. -/
def Obligations.ByteStreamCarriesTheWord : Prop :=
  ∀ i : Instr, i.wellFormed = true → ∃ bs, encodeBytes i = some bs ∧ bs.length = i.operand.form.length ∧
    ∀ b0 b1 b2, bs <+: [b0, b1, b2] → streamWord b0 b1 b2 = some (encode i, i.operand.form.length)

/-! ### The step -/

/-- A step with a word on the `instr` port runs the instruction it decodes to (R220; the port is held as log 6 says). -/
def Obligations.StepRunsTheOfferedInstruction : Prop :=
  ∀ s w i, s.faulted = false → s.instr = some w → decode w = .ok i → step s = exec i (s.setInstr none)

/-- R247: with no word on the port, a step runs the instruction at `PC`, with `PC` moved past its bytes. -/
def Obligations.StepRunsTheFetchedInstruction : Prop :=
  ∀ s w n i, s.faulted = false → s.instr = none → fetch s = some (w, n) → decode w = .ok i →
    step s = exec i (s.setPc (s.pc + BitVec.ofNat 16 n))

/-- R53, R247: when the bytes of an admitted instruction stand in memory at `PC`, the second and third modulo 65536, the
step runs that instruction. -/
def Obligations.StepRunsTheBytesInMemory : Prop :=
  ∀ s (i : Instr) bs, s.faulted = false → s.instr = none → encodeBytes i = some bs →
    (∀ k, k < bs.length → bs[k]? = some (s.readByte (s.pc + BitVec.ofNat 16 k))) →
    step s = exec i (s.setPc (s.pc + BitVec.ofNat 16 i.operand.form.length))

/-- R221, R223: executing a word that does not decode writes no register, flag or byte, gives status 2, records the word and
sets the fault mark (that this is a next state is log 4). -/
def Obligations.MalformedWordSetsTheFaultMark : Prop :=
  ∀ s w e, s.faulted = false → decode w = .error e → ∃ t, execute w s = .next t ∧
    t.out = { status := .contractViolation, info := some w, bus := [] } ∧ t.faulted = true ∧
    SameRegs s t ∧ t.p = s.p ∧ t.mem = s.mem

/-- R70, R247: the dispatcher meeting a byte with no row sets the fault mark, gives status 2 (log 8) and moves nothing. -/
def Obligations.ByteWithoutRowSetsTheFaultMark : Prop :=
  ∀ s, s.faulted = false → s.instr = none → byteRow (s.readByte s.pc) = none → ∃ t, step s = .next t ∧
    t.out.status = .contractViolation ∧ t.faulted = true ∧ SameRegs s t ∧ t.p = s.p ∧ t.mem = s.mem

/-- R221 item 4, R224 step 2: on a marked core every call of `execute`, of every instruction and every word, and every step is
refused with status 2; the model stops there by the fault of that name (log 5). -/
def Obligations.MarkedCoreExecutesNothing : Prop :=
  ∀ s, s.faulted = true → step s = .fault .coreFaulted ∧ (∀ w, execute w s = .fault .coreFaulted) ∧
    (∀ i, exec i s = .fault .coreFaulted) ∧ statusOf (step s) = .contractViolation

/-! ### The outcome of a call -/

/-- R224 step 3, R222 last sentence: every admitted instruction, in every unmarked state, completes with status OK, leaves
the core unmarked and raises nothing. -/
def Obligations.AdmittedInstructionsComplete : Prop :=
  ∀ i s, Runs i s → ∃ t, Completes i s t ∧ t.faulted = false

/-- R222, R224 steps 4 and 5: these pairs answer NotWritable, record the word and write nothing at all. -/
def Obligations.NotWritablePairsWriteNothing : Prop :=
  ∀ (i : Instr) s, s.faulted = false →
    (i.operation ∈ [Operation.sta, .stx, .sty] ∧ i.operand.form ∈ [Form.implicit, .immediate, .relative] ∨
      i.operation ∈ [Operation.asl, .lsr, .rol, .ror, .inc, .dec] ∧ i.operand.form ∈ [Form.immediate, .relative]) →
    exec i s = .next { s with out := { status := .notWritable, info := some (encode i), bus := [] } }

/-- R221, R224 step 6: every other pair that is not admitted answers ContractViolation, records the word, sets the mark and
writes no register, flag or byte (that this is a next state is log 4). -/
def Obligations.OtherUnadmittedPairsSetTheFaultMark : Prop :=
  ∀ (i : Instr) s, s.faulted = false → i.wellFormed = false →
    ¬ (i.operation ∈ [Operation.sta, .stx, .sty] ∧ i.operand.form ∈ [Form.implicit, .immediate, .relative]) →
    ¬ (i.operation ∈ [Operation.asl, .lsr, .rol, .ror, .inc, .dec] ∧ i.operand.form ∈ [Form.immediate, .relative]) →
    exec i s = .next { s with out := { status := .contractViolation, info := some (encode i), bus := [] }, faulted := true }

/-! ### alu_8bit -/

/-- R122: ADC. -/
def Obligations.AdcAddsWithCarry : Prop :=
  TakesForms .adc 0 valueForms [] ∧
  ∀ op s, Runs (.adc op) s → ∃ m t, getU8 op s = some m ∧ Completes (.adc op) s t ∧
    t.a.toNat = (s.a.toNat + m.toNat + (s.flag .c).toNat) % 256 ∧
    t.flag .c = decide (255 < s.a.toNat + m.toNat + (s.flag .c).toNat) ∧
    t.flag .v = (decide (s.a.getLsbD 7 = m.getLsbD 7) && decide (t.a.getLsbD 7 ≠ s.a.getLsbD 7)) ∧
    NZOf t t.a ∧ Frame [.a] [.c, .v, .n, .z] [] s t ∧ t.pc = s.pc

/-- R123: SBC. The borrow-in is 1 minus the carry. -/
def Obligations.SbcSubtractsWithBorrow : Prop :=
  TakesForms .sbc 43 valueForms [] ∧
  ∀ op s, Runs (.sbc op) s → ∃ m t, getU8 op s = some m ∧ Completes (.sbc op) s t ∧
    (t.a.toNat : Int) = ((s.a.toNat : Int) - m.toNat - (!s.flag .c).toNat) % 256 ∧
    t.flag .c = decide (m.toNat + (!s.flag .c).toNat ≤ s.a.toNat) ∧
    t.flag .v = (decide (s.a.getLsbD 7 ≠ m.getLsbD 7) && decide (t.a.getLsbD 7 ≠ s.a.getLsbD 7)) ∧
    NZOf t t.a ∧ Frame [.a] [.c, .v, .n, .z] [] s t ∧ t.pc = s.pc

/-- R124, R125, R126: AND, ORA, EOR. -/
def Obligations.LogicalInstructionsCombineIntoA : Prop :=
  LogicalRule .and 1 (· &&& ·) ∧ LogicalRule .ora 34 (· ||| ·) ∧ LogicalRule .eor 23 (· ^^^ ·)

/-- R127 to R130: ASL, LSR, ROL, ROR. The rotates fill the vacated bit with the carry held before. -/
def Obligations.ShiftsWriteBackAndSetCarry : Prop :=
  ModifyRule .asl 2 (.accumulator :: modifyForms) (fun v _ => v <<< 1) (some fun v => v.getLsbD 7) ∧
    ModifyRule .lsr 32 (.accumulator :: modifyForms) (fun v _ => v >>> 1) (some fun v => v.getLsbD 0) ∧
    ModifyRule .rol 39 (.accumulator :: modifyForms) (fun v c => (v <<< 1) ||| (if c then 0x01 else 0x00)) (some fun v => v.getLsbD 7) ∧
    ModifyRule .ror 40 (.accumulator :: modifyForms) (fun v c => (v >>> 1) ||| (if c then 0x80 else 0x00)) (some fun v => v.getLsbD 0)

/-- R131, R132: INC, DEC. -/
def Obligations.IncDecStepAMemoryByte : Prop :=
  ModifyRule .inc 24 modifyForms (fun v _ => v + 1) none ∧ ModifyRule .dec 20 modifyForms (fun v _ => v - 1) none

/-- R133 to R136: INX, INY, DEX, DEY. -/
def Obligations.RegisterStepsWrap : Prop :=
  StepRegisterRule .inx 25 .x (· + 1) ∧ StepRegisterRule .iny 26 .y (· + 1) ∧
    StepRegisterRule .dex 21 .x (· - 1) ∧ StepRegisterRule .dey 22 .y (· - 1)

/-- R137, R138, R139: CMP, CPX, CPY. -/
def Obligations.ComparesWriteFlagsOnly : Prop :=
  CompareRule .cmp 17 valueForms .a ∧ CompareRule .cpx 18 [.immediate, .zeroPage, .absolute] .x ∧
    CompareRule .cpy 19 [.immediate, .zeroPage, .absolute] .y

/-- R141: SBC of `b` is ADC of its complement, in the result, the carry and the overflow. -/
def Obligations.SubtractIsAddOfTheComplement : Prop := ∀ a b cin, sub8 a b cin = add8 a (b ^^^ 0xFF) cin

/-- R142: the two laws of the source, on the instructions themselves: ADC's carry and overflow; and SBC with the carry set
undoes ADC with the carry clear. -/
def Obligations.AdcAndSbcLaws : Prop :=
  (∀ s b, s.faulted = false → ∃ t, exec (.adc (.immediate b)) s = .next t ∧
    t.flag .c = decide (255 < s.a.toNat + b.toNat + (s.flag .c).toNat) ∧
    t.flag .v = (decide (s.a.getLsbD 7 = b.getLsbD 7) && decide (t.a.getLsbD 7 ≠ s.a.getLsbD 7))) ∧
  (∀ s b, s.faulted = false → s.flag .c = false → ∃ t u, exec (.adc (.immediate b)) s = .next t ∧
    exec (.sbc (.immediate b)) (t.setFlag .c true) = .next u ∧ u.a = s.a)

/-! ### branch_jump_controller -/

/-- R162 to R169 with the body of R161: the eight branches. -/
def Obligations.BranchesTestOneFlag : Prop :=
  BranchRule .bcc 3 .c false ∧ BranchRule .bcs 4 .c true ∧ BranchRule .beq 5 .z true ∧ BranchRule .bne 8 .z false ∧
    BranchRule .bmi 7 .n true ∧ BranchRule .bpl 9 .n false ∧ BranchRule .bvc 11 .v false ∧ BranchRule .bvs 12 .v true

/-- R170, R109: JMP. The high byte of an Indirect target comes from the next address, modulo 65536, with no page quirk. -/
def Obligations.JmpGoesToItsTarget : Prop :=
  TakesForms .jmp 27 [.absolute, .indirect] [] ∧
  ∀ s a, s.faulted = false →
    (∃ t, Completes (.jmp (.absolute a)) s t ∧ t.pc = a ∧ Frame [] [] [] s t) ∧
    (∃ t, Completes (.jmp (.indirect a)) s t ∧
      t.pc.toNat = (s.readByte a).toNat + 256 * (s.readByte (a + 1)).toNat ∧ Frame [] [] [] s t)

/-- R171: JSR pushes `PC` as it stands, high byte first, and goes to the operand. -/
def Obligations.JsrPushesTheReturnAddress : Prop :=
  TakesForms .jsr 28 [.absolute] [] ∧
  ∀ s a, s.faulted = false → ∃ t, Completes (.jsr (.absolute a)) s t ∧ t.pc = a ∧ t.sp = s.sp - 2 ∧
    t.readByte (0x0100 + s.sp.setWidth 16) = s.pc.extractLsb' 8 8 ∧
    t.readByte (0x0100 + (s.sp - 1).setWidth 16) = s.pc.extractLsb' 0 8 ∧
    Frame [.sp] [] [0x0100 + s.sp.setWidth 16, 0x0100 + (s.sp - 1).setWidth 16] s t

/-- R172: RTS pops `PC`, low byte first, with no adjustment. -/
def Obligations.RtsPopsThePc : Prop :=
  TakesForms .rts 42 [.implicit] [] ∧
  ∀ s, s.faulted = false → ∃ t, Completes (.rts .implicit) s t ∧ t.sp = s.sp + 2 ∧
    t.pc = s.readByte (0x0100 + (s.sp + 2).setWidth 16) ++ s.readByte (0x0100 + (s.sp + 1).setWidth 16) ∧
    Frame [.sp] [] [] s t

/-- R173, R226: BRK saves `PC` and `P` on the stack, sets B and no other flag, and goes to the little-endian vector. -/
def Obligations.BrkTakesTheTrap : Prop :=
  TakesForms .brk 10 [.implicit] [] ∧
  ∀ s, s.faulted = false → ∃ t, Completes (.brk .implicit) s t ∧ t.sp = s.sp - 3 ∧
    t.readByte (0x0100 + s.sp.setWidth 16) = s.pc.extractLsb' 8 8 ∧
    t.readByte (0x0100 + (s.sp - 1).setWidth 16) = s.pc.extractLsb' 0 8 ∧
    t.readByte (0x0100 + (s.sp - 2).setWidth 16) = s.psw ∧ t.flag .b = true ∧
    t.pc = s.readByte 0xFFFF ++ s.readByte 0xFFFE ∧
    Frame [.sp] [.b]
      [0x0100 + s.sp.setWidth 16, 0x0100 + (s.sp - 1).setWidth 16, 0x0100 + (s.sp - 2).setWidth 16] s t

/-- R174, R227: RTI restores the whole of `P`, with bit 5 at 1, then `PC`. -/
def Obligations.RtiRestoresPAndPc : Prop :=
  TakesForms .rti 41 [.implicit] [] ∧
  ∀ s, s.faulted = false → ∃ t, Completes (.rti .implicit) s t ∧ t.sp = s.sp + 3 ∧
    t.psw = s.readByte (0x0100 + (s.sp + 1).setWidth 16) ||| 0x20 ∧
    t.pc = s.readByte (0x0100 + (s.sp + 3).setWidth 16) ++ s.readByte (0x0100 + (s.sp + 2).setWidth 16) ∧
    t.a = s.a ∧ t.x = s.x ∧ t.y = s.y ∧ (∀ a, t.readByte a = s.readByte a) ∧ t.faulted = s.faulted ∧ t.instr = s.instr

/-- R172, R174 corners, R85: RTS right after JSR resumes after the JSR, and RTI right after BRK restores `P` and resumes
after the BRK, with `SP` as it was, for every `SP`. -/
def Obligations.ReturnsUndoTheirCalls : Prop :=
  (∀ s a, s.faulted = false → ∃ t u, exec (.jsr (.absolute a)) s = .next t ∧ exec (.rts .implicit) t = .next u ∧
    u.pc = s.pc ∧ u.sp = s.sp) ∧
  (∀ s, s.faulted = false → ∃ t u, exec (.brk .implicit) s = .next t ∧ exec (.rti .implicit) t = .next u ∧
    u.pc = s.pc ∧ u.sp = s.sp ∧ u.psw = s.psw)

/-! ### Flag, load, store, transfer, stack, BIT and NOP -/

/-- R181 to R187 with the body of R180: the seven flag instructions. -/
def Obligations.FlagInstructionsWriteOneFlag : Prop :=
  FlagRule .clc 13 .c false ∧ FlagRule .sec 44 .c true ∧ FlagRule .cli 15 .i false ∧ FlagRule .sei 46 .i true ∧
    FlagRule .clv 16 .v false ∧ FlagRule .cld 14 .d false ∧ FlagRule .sed 45 .d true

/-- R188, R189, R190: LDA, LDX, LDY. -/
def Obligations.LoadsSetTheRegister : Prop :=
  LoadRule .lda 29 valueForms .a ∧ LoadRule .ldx 30 [.immediate, .zeroPage, .zeroPageY, .absolute, .absoluteY] .x ∧
    LoadRule .ldy 31 [.immediate, .zeroPage, .zeroPageX, .absolute, .absoluteX] .y

/-- R191, R192, R193: STA, STX, STY. -/
def Obligations.StoresWriteOneByte : Prop :=
  StoreRule .sta 47 [.zeroPage, .zeroPageX, .absolute, .absoluteX, .absoluteY, .indexedIndirect, .indirectIndexed] .a ∧
    StoreRule .stx 48 [.zeroPage, .zeroPageY, .absolute] .x ∧ StoreRule .sty 49 [.zeroPage, .zeroPageX, .absolute] .y

/-- R194 to R197: TAX, TXA, TAY, TYA. -/
def Obligations.TransfersSetNAndZ : Prop :=
  TransferRule .tax 50 .a .x ∧ TransferRule .txa 53 .x .a ∧ TransferRule .tay 51 .a .y ∧ TransferRule .tya 55 .y .a

/-- R198, R199: TXS and TSX write no flag. -/
def Obligations.StackPointerTransfersWriteNoFlag : Prop :=
  SilentTransferRule .txs 54 .x .sp ∧ SilentTransferRule .tsx 52 .sp .x

/-- R200, R202: PHA pushes `A`, PHP pushes `P` unaltered; `SP` goes down by one, wrapping. -/
def Obligations.PushInstructionsWriteTheStack : Prop :=
  TakesForms .pha 35 [.implicit] [] ∧ TakesForms .php 36 [.implicit] [] ∧
  ∀ s, s.faulted = false →
    (∃ t, Completes (.pha .implicit) s t ∧ t.readByte (0x0100 + s.sp.setWidth 16) = s.a ∧ t.sp = s.sp - 1 ∧
      Frame [.sp] [] [0x0100 + s.sp.setWidth 16] s t ∧ t.pc = s.pc) ∧
    (∃ t, Completes (.php .implicit) s t ∧ t.readByte (0x0100 + s.sp.setWidth 16) = s.psw ∧ t.sp = s.sp - 1 ∧
      Frame [.sp] [] [0x0100 + s.sp.setWidth 16] s t ∧ t.pc = s.pc)

/-- R201: PLA pops `A` and sets N and Z from it. -/
def Obligations.PlaPopsTheAccumulator : Prop :=
  TakesForms .pla 37 [.implicit] [] ∧
  ∀ s, s.faulted = false → ∃ t, Completes (.pla .implicit) s t ∧ t.sp = s.sp + 1 ∧
    t.a = s.readByte (0x0100 + (s.sp + 1).setWidth 16) ∧ NZOf t t.a ∧ Frame [.a, .sp] [.n, .z] [] s t ∧ t.pc = s.pc

/-- R203, R28: PLP restores every bit of the popped byte but bit 5, which stays 1. -/
def Obligations.PlpRestoresTheWholeByte : Prop :=
  TakesForms .plp 38 [.implicit] [] ∧
  ∀ s, s.faulted = false → ∃ t, Completes (.plp .implicit) s t ∧ t.sp = s.sp + 1 ∧
    (∀ f, t.flag f = (s.readByte (0x0100 + (s.sp + 1).setWidth 16)).getLsbD f.pos) ∧ t.p[5] = true ∧
    t.a = s.a ∧ t.x = s.x ∧ t.y = s.y ∧ t.pc = s.pc ∧ (∀ a, t.readByte a = s.readByte a) ∧
    t.faulted = s.faulted ∧ t.instr = s.instr

/-- R204: BIT. N and V come from the operand, Z from the operand AND `A`; `A` and C are as they were. -/
def Obligations.BitTestsTheOperand : Prop :=
  TakesForms .bit 6 [.zeroPage, .absolute] [] ∧
  ∀ op s, Runs (.bit op) s → ∃ m t, getU8 op s = some m ∧ Completes (.bit op) s t ∧
    t.flag .z = decide (s.a &&& m = 0) ∧ t.flag .n = m.getLsbD 7 ∧ t.flag .v = m.getLsbD 6 ∧
    Frame [] [.z, .n, .v] [] s t ∧ t.pc = s.pc

/-- R205: NOP changes no register, flag or byte of memory, and not `PC`. -/
def Obligations.NopChangesNothing : Prop :=
  TakesForms .nop 33 [.implicit] [] ∧
  ∀ op s, Runs (.nop op) s → ∃ t, Completes (.nop op) s t ∧ SameRegs s t ∧ t.p = s.p ∧ t.mem = s.mem ∧
    Frame [] [] [] s t

/-! ### address_mode_resolver and stack_controller -/

/-- R101 to R108, R110: the effective address of every form but IndirectIndexed, as a number. -/
def Obligations.EffectiveAddressesOfTheForms : Prop :=
  ∀ s (o : Byte) (a : Addr),
    getPointer .implicit s = none ∧ getPointer .accumulator s = none ∧ getPointer (.immediate o) s = none ∧
    (getPointer (.zeroPage o) s).map BitVec.toNat = some o.toNat ∧
    (getPointer (.zeroPageX o) s).map BitVec.toNat = some ((s.x.toNat + o.toNat) % 256) ∧
    (getPointer (.zeroPageY o) s).map BitVec.toNat = some ((s.y.toNat + o.toNat) % 256) ∧
    (getPointer (.relative o) s).map (fun t => (t.toNat : Int)) = some (((s.pc.toNat : Int) + o.toInt) % 65536) ∧
    getPointer (.absolute a) s = some a ∧
    (getPointer (.absoluteX a) s).map BitVec.toNat = some ((a.toNat + s.x.toNat) % 65536) ∧
    (getPointer (.absoluteY a) s).map BitVec.toNat = some ((a.toNat + s.y.toNat) % 65536) ∧
    (getPointer (.indirect a) s).map BitVec.toNat =
      some ((s.mem.read a.toNat).toNat + 256 * (s.mem.read ((a.toNat + 1) % 65536)).toNat) ∧
    (getPointer (.indexedIndirect o) s).map BitVec.toNat =
      some ((s.mem.read ((o.toNat + s.x.toNat) % 256)).toNat +
        256 * (s.mem.read ((o.toNat + s.x.toNat + 1) % 256)).toNat)

/-- R111: IndirectIndexed. That the second pointer byte stays in page zero is the spec's decision D9. -/
def Obligations.IndirectIndexedAddsYToAZeroPagePointer : Prop :=
  ∀ s (o : Byte), (getPointer (.indirectIndexed o) s).map BitVec.toNat =
    some (((s.mem.read o.toNat).toNat + 256 * (s.mem.read ((o.toNat + 1) % 256)).toNat + s.y.toNat) % 65536)

/-- R112, R113: an operand has a value exactly when it is not Implicit: `A`, the literal, or the byte at the effective
address; a write back goes to `A`, to the effective address and
nowhere else, or raises NotWritable on Implicit, Immediate and Relative; and the value is then read back. -/
def Obligations.OperandsReadAndWriteBack : Prop :=
  ∀ op s v, (getU8 op s = none ↔ op = .implicit) ∧ getU8 .accumulator s = some s.a ∧
    getU8 (.immediate v) s = some v ∧ (∀ a, getPointer op s = some a → getU8 op s = some (s.readByte a)) ∧
    (op.form ∈ [Form.implicit, .immediate, .relative] → setU8 op v s = .error .notWritable) ∧
    (op = .accumulator → setU8 op v s = .ok { s with a := v }) ∧
    (op.form ∉ [Form.implicit, .accumulator, .immediate, .relative] → ∃ a t, getPointer op s = some a ∧
      setU8 op v s = .ok t ∧ t.readByte a = v ∧ Frame [] [] [a] s t ∧ t.pc = s.pc)

/-- R80 to R83: push writes the slot and then lowers `SP`, pop raises `SP` and then reads the slot, both wrapping; `push_pc`
pushes the high byte first and leaves `PC`; `pop_pc` pops the low byte first. -/
def Obligations.StackPrimitivesMoveOneByte : Prop :=
  ∀ (s : State) (v : Byte),
    ((s.push v).sp.toNat : Int) = ((s.sp.toNat : Int) - 1) % 256 ∧
    (∀ a : Addr, (s.push v).readByte a = if a.toNat = 256 + s.sp.toNat then v else s.readByte a) ∧
    s.popped.sp.toNat = (s.sp.toNat + 1) % 256 ∧ s.popValue = s.mem.read (256 + (s.sp.toNat + 1) % 256) ∧
    s.popped.mem = s.mem ∧
    s.pushPc = (s.push (s.pc.extractLsb' 8 8)).push (s.pc.extractLsb' 0 8) ∧ s.pushPc.pc = s.pc ∧
    s.popPc.pc.toNat = s.popValue.toNat + 256 * s.popped.popValue.toNat ∧ s.popPc.sp = s.popped.popped.sp ∧
    s.popPc.mem = s.mem

/-- R85, R84, R48: a pop right after a push gives the byte and `SP` back, and `pop_pc` right after `push_pc` gives `PC` and
`SP` back, for every `SP`; `push_pc` leaves the high byte at the slot of `SP` and the low byte at the slot below, wrapping. -/
def Obligations.StackPrimitivesRoundTrip : Prop :=
  ∀ (s : State) (v : Byte), (s.push v).popValue = v ∧ (s.push v).popped.sp = s.sp ∧
    s.pushPc.popPc.pc = s.pc ∧ s.pushPc.popPc.sp = s.sp ∧ s.pushPc.pc = s.pc ∧
    (s.pushPc.sp.toNat : Int) = ((s.sp.toNat : Int) - 2) % 256 ∧
    s.pushPc.mem.read (256 + s.sp.toNat) = s.pc.extractLsb' 8 8 ∧
    s.pushPc.mem.read (256 + (s.sp.toNat + 255) % 256) = s.pc.extractLsb' 0 8

/-! ### Rules of the whole machine -/

/-- R21, R24: only the instructions of the table write each register. -/
def Obligations.OnlyTheListedInstructionsWriteARegister : Prop :=
  ∀ (i : Instr) s t, exec i s = .next t →
    (t.a ≠ s.a → i.operation ∈ [Operation.adc, .sbc, .and, .ora, .eor, .lda, .txa, .tya, .pla] ∨
      i.operation ∈ [Operation.asl, .lsr, .rol, .ror] ∧ i.operand = .accumulator) ∧
    (t.x ≠ s.x → i.operation ∈ [Operation.ldx, .tax, .tsx, .inx, .dex]) ∧
    (t.y ≠ s.y → i.operation ∈ [Operation.ldy, .tay, .iny, .dey]) ∧
    (t.sp ≠ s.sp → i.operation ∈ [Operation.pha, .php, .pla, .plp, .jsr, .rts, .brk, .rti, .txs]) ∧
    (t.pc ≠ s.pc → i.operation ∈
      [Operation.bcc, .bcs, .beq, .bne, .bmi, .bpl, .bvc, .bvs, .jmp, .jsr, .rts, .brk, .rti])

/-- R25, R27: only the instructions of the table write each flag. -/
def Obligations.OnlyTheListedInstructionsWriteAFlag : Prop :=
  ∀ (i : Instr) s t, exec i s = .next t → i.operation ∉ [Operation.plp, .rti] →
    (t.flag .c ≠ s.flag .c → i.operation ∈
      [Operation.adc, .sbc, .asl, .lsr, .rol, .ror, .cmp, .cpx, .cpy, .clc, .sec]) ∧
    (t.flag .v ≠ s.flag .v → i.operation ∈ [Operation.adc, .sbc, .bit, .clv]) ∧
    (t.flag .b ≠ s.flag .b → i.operation = .brk) ∧
    (t.flag .d ≠ s.flag .d → i.operation ∈ [Operation.cld, .sed]) ∧
    (t.flag .i ≠ s.flag .i → i.operation ∈ [Operation.cli, .sei]) ∧
    ((t.flag .n ≠ s.flag .n ∨ t.flag .z ≠ s.flag .z) → i.operation ∈
      [Operation.adc, .sbc, .and, .ora, .eor, .asl, .lsr, .rol, .ror, .inc, .dec, .inx, .iny, .dex, .dey, .cmp, .cpx,
        .cpy, .lda, .ldx, .ldy, .tax, .txa, .tay, .tya, .pla, .bit])

/-- R29, R30, R31: B, D and I are inert. Changing one of them before any instruction but PHP and BRK, which push `P`, changes
nothing in the outcome but that flag itself: no register, other flag, byte of memory, status or access. -/
def Obligations.BreakDecimalAndInterruptFlagsAreInert : Prop :=
  ∀ f, f ∈ [Flag.b, .d, .i] → ∀ v (i : Instr) s, i.operation ∉ [Operation.php, .brk] → s.faulted = false →
    ∃ t t', exec i s = .next t ∧ exec i (s.setFlag f v) = .next t' ∧ SameRegs t t' ∧ t'.mem = t.mem ∧
      (∀ g, g ≠ f → t'.flag g = t.flag g) ∧ t'.faulted = t.faulted ∧ t'.out = t.out

/-- R43, R50: the accesses on the ports are all the accesses there are. Every read returns the byte of the latest earlier
write, and the writes, replayed in order on the memory before the instruction, give the memory after it. -/
def Obligations.AccessesAccountForMemory : Prop :=
  ∀ i s t, exec i s = .next t →
    accessesAgree s.mem t.out.bus ∧ t.out.bus.foldl replayAccess s.mem = t.mem

/-- R43, R44: the accesses of each class of the table, in order, each with its direction and address. `ea` is the effective
address of a memory operand. -/
def Obligations.AccessesComeInTheOrderOfTheTable : Prop :=
  ∀ i s, Runs i s → ∃ t, exec i s = .next t ∧
    (let ptrs : List (Bool × Addr) := match i.operand with
      | .indexedIndirect o => [(false, (o + s.x).setWidth 16), (false, (o + s.x + 1).setWidth 16)]
      | .indirectIndexed o => [(false, o.setWidth 16), (false, (o + 1).setWidth 16)]
      | .indirect a => [(false, a), (false, a + 1)]
      | _ => []
     let ea := (getPointer i.operand s).toList
     let slot : Byte → Addr := fun k => 0x0100 + k.setWidth 16
     let bus := t.out.bus.map Access.port
     (i.operation ∈ [Operation.adc, .sbc, .and, .ora, .eor, .cmp, .cpx, .cpy, .bit, .lda, .ldx, .ldy] →
        bus = ptrs ++ ea.map (fun a => (false, a))) ∧
     (i.operation ∈ [Operation.asl, .lsr, .rol, .ror, .inc, .dec] →
        bus = ea.map (fun a => (false, a)) ++ ea.map (fun a => (true, a))) ∧
     (i.operation ∈ [Operation.sta, .stx, .sty] → bus = ptrs ++ ea.map (fun a => (true, a))) ∧
     (i.operation ∈ [Operation.pha, .php] → bus = [(true, slot s.sp)]) ∧
     (i.operation ∈ [Operation.pla, .plp] → bus = [(false, slot (s.sp + 1))]) ∧
     (i.operation = .jsr → bus = [(true, slot s.sp), (true, slot (s.sp - 1))]) ∧
     (i.operation = .rts → bus = [(false, slot (s.sp + 1)), (false, slot (s.sp + 2))]) ∧
     (i.operation = .brk → bus = [(true, slot s.sp), (true, slot (s.sp - 1)), (true, slot (s.sp - 2)),
        (false, 0xFFFE), (false, 0xFFFF)]) ∧
     (i.operation = .rti → bus = [(false, slot (s.sp + 1)), (false, slot (s.sp + 2)), (false, slot (s.sp + 3))]) ∧
     (i.operation = .jmp → bus = ptrs) ∧
     (i.operation ∈ [Operation.bcc, .bcs, .beq, .bne, .bmi, .bpl, .bvc, .bvs, .clc, .sec, .cli, .sei, .clv, .cld, .sed,
        .tax, .txa, .tay, .tya, .txs, .tsx, .inx, .iny, .dex, .dey, .nop] → bus = []))

/-- R248: a run that halted or faulted within a budget ends the same way, in the same state, with any larger one; and it never
halts in a marked state or anywhere but at `HALT_PC`. -/
def Obligations.RunEndsDoNotDependOnTheBudget : Prop :=
  ∀ h n k s t, (runUntil h n s = .halted t → runUntil h (n + k) s = .halted t ∧ t.pc = h ∧ t.faulted = false) ∧
    (runUntil h n s = .faulted t → runUntil h (n + k) s = .faulted t ∧ t.faulted = true)
end

