-- ==== Sys2Proof/Laws/State.lean ====
section
/-! SUPPORT. One lemma per field and update of State, each by rfl, so that no later proof unfolds a record update. -/

namespace Sys2Proof.Machine.State

variable (s : State)

/-! ### setA -/

@[simp] theorem setA_a (v : Byte) : (s.setA v).a = v := rfl
@[simp] theorem setA_x (v : Byte) : (s.setA v).x = s.x := rfl
@[simp] theorem setA_y (v : Byte) : (s.setA v).y = s.y := rfl
@[simp] theorem setA_sp (v : Byte) : (s.setA v).sp = s.sp := rfl
@[simp] theorem setA_pc (v : Byte) : (s.setA v).pc = s.pc := rfl
@[simp] theorem setA_p (v : Byte) : (s.setA v).p = s.p := rfl
@[simp] theorem setA_mem (v : Byte) : (s.setA v).mem = s.mem := rfl
@[simp] theorem setA_faulted (v : Byte) : (s.setA v).faulted = s.faulted := rfl
@[simp] theorem setA_instr (v : Byte) : (s.setA v).instr = s.instr := rfl
@[simp] theorem setA_out (v : Byte) : (s.setA v).out = s.out := rfl
@[simp] theorem setA_readByte (v : Byte) (a : Addr) : (s.setA v).readByte a = s.readByte a := rfl
@[simp] theorem setA_flag (v : Byte) (f : Flag) : (s.setA v).flag f = s.flag f := rfl

/-! ### setX -/

@[simp] theorem setX_a (v : Byte) : (s.setX v).a = s.a := rfl
@[simp] theorem setX_x (v : Byte) : (s.setX v).x = v := rfl
@[simp] theorem setX_y (v : Byte) : (s.setX v).y = s.y := rfl
@[simp] theorem setX_sp (v : Byte) : (s.setX v).sp = s.sp := rfl
@[simp] theorem setX_pc (v : Byte) : (s.setX v).pc = s.pc := rfl
@[simp] theorem setX_p (v : Byte) : (s.setX v).p = s.p := rfl
@[simp] theorem setX_mem (v : Byte) : (s.setX v).mem = s.mem := rfl
@[simp] theorem setX_faulted (v : Byte) : (s.setX v).faulted = s.faulted := rfl
@[simp] theorem setX_instr (v : Byte) : (s.setX v).instr = s.instr := rfl
@[simp] theorem setX_out (v : Byte) : (s.setX v).out = s.out := rfl
@[simp] theorem setX_readByte (v : Byte) (a : Addr) : (s.setX v).readByte a = s.readByte a := rfl
@[simp] theorem setX_flag (v : Byte) (f : Flag) : (s.setX v).flag f = s.flag f := rfl

/-! ### setY -/

@[simp] theorem setY_a (v : Byte) : (s.setY v).a = s.a := rfl
@[simp] theorem setY_x (v : Byte) : (s.setY v).x = s.x := rfl
@[simp] theorem setY_y (v : Byte) : (s.setY v).y = v := rfl
@[simp] theorem setY_sp (v : Byte) : (s.setY v).sp = s.sp := rfl
@[simp] theorem setY_pc (v : Byte) : (s.setY v).pc = s.pc := rfl
@[simp] theorem setY_p (v : Byte) : (s.setY v).p = s.p := rfl
@[simp] theorem setY_mem (v : Byte) : (s.setY v).mem = s.mem := rfl
@[simp] theorem setY_faulted (v : Byte) : (s.setY v).faulted = s.faulted := rfl
@[simp] theorem setY_instr (v : Byte) : (s.setY v).instr = s.instr := rfl
@[simp] theorem setY_out (v : Byte) : (s.setY v).out = s.out := rfl
@[simp] theorem setY_readByte (v : Byte) (a : Addr) : (s.setY v).readByte a = s.readByte a := rfl
@[simp] theorem setY_flag (v : Byte) (f : Flag) : (s.setY v).flag f = s.flag f := rfl

/-! ### setSp -/

@[simp] theorem setSp_a (v : Byte) : (s.setSp v).a = s.a := rfl
@[simp] theorem setSp_x (v : Byte) : (s.setSp v).x = s.x := rfl
@[simp] theorem setSp_y (v : Byte) : (s.setSp v).y = s.y := rfl
@[simp] theorem setSp_sp (v : Byte) : (s.setSp v).sp = v := rfl
@[simp] theorem setSp_pc (v : Byte) : (s.setSp v).pc = s.pc := rfl
@[simp] theorem setSp_p (v : Byte) : (s.setSp v).p = s.p := rfl
@[simp] theorem setSp_mem (v : Byte) : (s.setSp v).mem = s.mem := rfl
@[simp] theorem setSp_faulted (v : Byte) : (s.setSp v).faulted = s.faulted := rfl
@[simp] theorem setSp_instr (v : Byte) : (s.setSp v).instr = s.instr := rfl
@[simp] theorem setSp_out (v : Byte) : (s.setSp v).out = s.out := rfl
@[simp] theorem setSp_readByte (v : Byte) (a : Addr) : (s.setSp v).readByte a = s.readByte a := rfl
@[simp] theorem setSp_flag (v : Byte) (f : Flag) : (s.setSp v).flag f = s.flag f := rfl

/-! ### setPc -/

@[simp] theorem setPc_a (t : Addr) : (s.setPc t).a = s.a := rfl
@[simp] theorem setPc_x (t : Addr) : (s.setPc t).x = s.x := rfl
@[simp] theorem setPc_y (t : Addr) : (s.setPc t).y = s.y := rfl
@[simp] theorem setPc_sp (t : Addr) : (s.setPc t).sp = s.sp := rfl
@[simp] theorem setPc_pc (t : Addr) : (s.setPc t).pc = t := rfl
@[simp] theorem setPc_p (t : Addr) : (s.setPc t).p = s.p := rfl
@[simp] theorem setPc_mem (t : Addr) : (s.setPc t).mem = s.mem := rfl
@[simp] theorem setPc_faulted (t : Addr) : (s.setPc t).faulted = s.faulted := rfl
@[simp] theorem setPc_instr (t : Addr) : (s.setPc t).instr = s.instr := rfl
@[simp] theorem setPc_out (t : Addr) : (s.setPc t).out = s.out := rfl
@[simp] theorem setPc_readByte (t : Addr) (a : Addr) : (s.setPc t).readByte a = s.readByte a := rfl
@[simp] theorem setPc_flag (t : Addr) (f : Flag) : (s.setPc t).flag f = s.flag f := rfl

/-! ### setP -/

@[simp] theorem setP_a (v : Byte) : (s.setP v).a = s.a := rfl
@[simp] theorem setP_x (v : Byte) : (s.setP v).x = s.x := rfl
@[simp] theorem setP_y (v : Byte) : (s.setP v).y = s.y := rfl
@[simp] theorem setP_sp (v : Byte) : (s.setP v).sp = s.sp := rfl
@[simp] theorem setP_pc (v : Byte) : (s.setP v).pc = s.pc := rfl
@[simp] theorem setP_p (v : Byte) : (s.setP v).p = v := rfl
@[simp] theorem setP_mem (v : Byte) : (s.setP v).mem = s.mem := rfl
@[simp] theorem setP_faulted (v : Byte) : (s.setP v).faulted = s.faulted := rfl
@[simp] theorem setP_instr (v : Byte) : (s.setP v).instr = s.instr := rfl
@[simp] theorem setP_out (v : Byte) : (s.setP v).out = s.out := rfl
@[simp] theorem setP_readByte (v : Byte) (a : Addr) : (s.setP v).readByte a = s.readByte a := rfl

/-! ### setMem -/

@[simp] theorem setMem_a (m : Memory) : (s.setMem m).a = s.a := rfl
@[simp] theorem setMem_x (m : Memory) : (s.setMem m).x = s.x := rfl
@[simp] theorem setMem_y (m : Memory) : (s.setMem m).y = s.y := rfl
@[simp] theorem setMem_sp (m : Memory) : (s.setMem m).sp = s.sp := rfl
@[simp] theorem setMem_pc (m : Memory) : (s.setMem m).pc = s.pc := rfl
@[simp] theorem setMem_p (m : Memory) : (s.setMem m).p = s.p := rfl
@[simp] theorem setMem_mem (m : Memory) : (s.setMem m).mem = m := rfl
@[simp] theorem setMem_faulted (m : Memory) : (s.setMem m).faulted = s.faulted := rfl
@[simp] theorem setMem_instr (m : Memory) : (s.setMem m).instr = s.instr := rfl
@[simp] theorem setMem_out (m : Memory) : (s.setMem m).out = s.out := rfl
@[simp] theorem setMem_flag (m : Memory) (f : Flag) : (s.setMem m).flag f = s.flag f := rfl

/-! ### setOut -/

@[simp] theorem setOut_a (o : Ports) : (s.setOut o).a = s.a := rfl
@[simp] theorem setOut_x (o : Ports) : (s.setOut o).x = s.x := rfl
@[simp] theorem setOut_y (o : Ports) : (s.setOut o).y = s.y := rfl
@[simp] theorem setOut_sp (o : Ports) : (s.setOut o).sp = s.sp := rfl
@[simp] theorem setOut_pc (o : Ports) : (s.setOut o).pc = s.pc := rfl
@[simp] theorem setOut_p (o : Ports) : (s.setOut o).p = s.p := rfl
@[simp] theorem setOut_mem (o : Ports) : (s.setOut o).mem = s.mem := rfl
@[simp] theorem setOut_faulted (o : Ports) : (s.setOut o).faulted = s.faulted := rfl
@[simp] theorem setOut_instr (o : Ports) : (s.setOut o).instr = s.instr := rfl
@[simp] theorem setOut_out (o : Ports) : (s.setOut o).out = o := rfl
@[simp] theorem setOut_readByte (o : Ports) (a : Addr) : (s.setOut o).readByte a = s.readByte a := rfl
@[simp] theorem setOut_flag (o : Ports) (f : Flag) : (s.setOut o).flag f = s.flag f := rfl

/-! ### setFaulted -/

@[simp] theorem setFaulted_a : (s.setFaulted).a = s.a := rfl
@[simp] theorem setFaulted_x : (s.setFaulted).x = s.x := rfl
@[simp] theorem setFaulted_y : (s.setFaulted).y = s.y := rfl
@[simp] theorem setFaulted_sp : (s.setFaulted).sp = s.sp := rfl
@[simp] theorem setFaulted_pc : (s.setFaulted).pc = s.pc := rfl
@[simp] theorem setFaulted_p : (s.setFaulted).p = s.p := rfl
@[simp] theorem setFaulted_mem : (s.setFaulted).mem = s.mem := rfl
@[simp] theorem setFaulted_faulted : (s.setFaulted).faulted = true := rfl
@[simp] theorem setFaulted_instr : (s.setFaulted).instr = s.instr := rfl
@[simp] theorem setFaulted_out : (s.setFaulted).out = s.out := rfl
@[simp] theorem setFaulted_readByte (a : Addr) : (s.setFaulted).readByte a = s.readByte a := rfl
@[simp] theorem setFaulted_flag (f : Flag) : (s.setFaulted).flag f = s.flag f := rfl

/-! ### setInstr -/

@[simp] theorem setInstr_a (w : Option IWord) : (s.setInstr w).a = s.a := rfl
@[simp] theorem setInstr_x (w : Option IWord) : (s.setInstr w).x = s.x := rfl
@[simp] theorem setInstr_y (w : Option IWord) : (s.setInstr w).y = s.y := rfl
@[simp] theorem setInstr_sp (w : Option IWord) : (s.setInstr w).sp = s.sp := rfl
@[simp] theorem setInstr_pc (w : Option IWord) : (s.setInstr w).pc = s.pc := rfl
@[simp] theorem setInstr_p (w : Option IWord) : (s.setInstr w).p = s.p := rfl
@[simp] theorem setInstr_mem (w : Option IWord) : (s.setInstr w).mem = s.mem := rfl
@[simp] theorem setInstr_faulted (w : Option IWord) : (s.setInstr w).faulted = s.faulted := rfl
@[simp] theorem setInstr_instr (w : Option IWord) : (s.setInstr w).instr = w := rfl
@[simp] theorem setInstr_out (w : Option IWord) : (s.setInstr w).out = s.out := rfl
@[simp] theorem setInstr_readByte (w : Option IWord) (a : Addr) : (s.setInstr w).readByte a = s.readByte a := rfl
@[simp] theorem setInstr_flag (w : Option IWord) (f : Flag) : (s.setInstr w).flag f = s.flag f := rfl

/-! ### The updates built on them -/

@[simp] theorem writeByte_a (a : Addr) (v : Byte) : (s.writeByte a v).a = s.a := rfl
@[simp] theorem writeByte_x (a : Addr) (v : Byte) : (s.writeByte a v).x = s.x := rfl
@[simp] theorem writeByte_y (a : Addr) (v : Byte) : (s.writeByte a v).y = s.y := rfl
@[simp] theorem writeByte_sp (a : Addr) (v : Byte) : (s.writeByte a v).sp = s.sp := rfl
@[simp] theorem writeByte_pc (a : Addr) (v : Byte) : (s.writeByte a v).pc = s.pc := rfl
@[simp] theorem writeByte_p (a : Addr) (v : Byte) : (s.writeByte a v).p = s.p := rfl
@[simp] theorem writeByte_faulted (a : Addr) (v : Byte) : (s.writeByte a v).faulted = s.faulted := rfl
@[simp] theorem writeByte_instr (a : Addr) (v : Byte) : (s.writeByte a v).instr = s.instr := rfl
@[simp] theorem writeByte_out (a : Addr) (v : Byte) : (s.writeByte a v).out = s.out := rfl
@[simp] theorem writeByte_flag (a : Addr) (v : Byte) (g : Flag) : (s.writeByte a v).flag g = s.flag g := rfl
@[simp] theorem setFlag_a (f : Flag) (b : Bool) : (s.setFlag f b).a = s.a := rfl
@[simp] theorem setFlag_x (f : Flag) (b : Bool) : (s.setFlag f b).x = s.x := rfl
@[simp] theorem setFlag_y (f : Flag) (b : Bool) : (s.setFlag f b).y = s.y := rfl
@[simp] theorem setFlag_sp (f : Flag) (b : Bool) : (s.setFlag f b).sp = s.sp := rfl
@[simp] theorem setFlag_pc (f : Flag) (b : Bool) : (s.setFlag f b).pc = s.pc := rfl
@[simp] theorem setFlag_mem (f : Flag) (b : Bool) : (s.setFlag f b).mem = s.mem := rfl
@[simp] theorem setFlag_faulted (f : Flag) (b : Bool) : (s.setFlag f b).faulted = s.faulted := rfl
@[simp] theorem setFlag_instr (f : Flag) (b : Bool) : (s.setFlag f b).instr = s.instr := rfl
@[simp] theorem setFlag_out (f : Flag) (b : Bool) : (s.setFlag f b).out = s.out := rfl
@[simp] theorem setFlag_readByte (f : Flag) (b : Bool) (c : Addr) : (s.setFlag f b).readByte c = s.readByte c := rfl
@[simp] theorem setPsw_a (v : Byte) : (s.setPsw v).a = s.a := rfl
@[simp] theorem setPsw_x (v : Byte) : (s.setPsw v).x = s.x := rfl
@[simp] theorem setPsw_y (v : Byte) : (s.setPsw v).y = s.y := rfl
@[simp] theorem setPsw_sp (v : Byte) : (s.setPsw v).sp = s.sp := rfl
@[simp] theorem setPsw_pc (v : Byte) : (s.setPsw v).pc = s.pc := rfl
@[simp] theorem setPsw_mem (v : Byte) : (s.setPsw v).mem = s.mem := rfl
@[simp] theorem setPsw_faulted (v : Byte) : (s.setPsw v).faulted = s.faulted := rfl
@[simp] theorem setPsw_instr (v : Byte) : (s.setPsw v).instr = s.instr := rfl
@[simp] theorem setPsw_out (v : Byte) : (s.setPsw v).out = s.out := rfl
@[simp] theorem setPsw_readByte (v : Byte) (c : Addr) : (s.setPsw v).readByte c = s.readByte c := rfl
@[simp] theorem completed_a (bus : List Access) : (s.completed bus).a = s.a := rfl
@[simp] theorem completed_x (bus : List Access) : (s.completed bus).x = s.x := rfl
@[simp] theorem completed_y (bus : List Access) : (s.completed bus).y = s.y := rfl
@[simp] theorem completed_sp (bus : List Access) : (s.completed bus).sp = s.sp := rfl
@[simp] theorem completed_pc (bus : List Access) : (s.completed bus).pc = s.pc := rfl
@[simp] theorem completed_p (bus : List Access) : (s.completed bus).p = s.p := rfl
@[simp] theorem completed_mem (bus : List Access) : (s.completed bus).mem = s.mem := rfl
@[simp] theorem completed_faulted (bus : List Access) : (s.completed bus).faulted = s.faulted := rfl
@[simp] theorem completed_instr (bus : List Access) : (s.completed bus).instr = s.instr := rfl
@[simp] theorem completed_readByte (bus : List Access) (c : Addr) : (s.completed bus).readByte c = s.readByte c := rfl
@[simp] theorem completed_flag (bus : List Access) (g : Flag) : (s.completed bus).flag g = s.flag g := rfl
@[simp] theorem notWritable_a (w : IWord) : (s.notWritable w).a = s.a := rfl
@[simp] theorem notWritable_x (w : IWord) : (s.notWritable w).x = s.x := rfl
@[simp] theorem notWritable_y (w : IWord) : (s.notWritable w).y = s.y := rfl
@[simp] theorem notWritable_sp (w : IWord) : (s.notWritable w).sp = s.sp := rfl
@[simp] theorem notWritable_pc (w : IWord) : (s.notWritable w).pc = s.pc := rfl
@[simp] theorem notWritable_p (w : IWord) : (s.notWritable w).p = s.p := rfl
@[simp] theorem notWritable_mem (w : IWord) : (s.notWritable w).mem = s.mem := rfl
@[simp] theorem notWritable_faulted (w : IWord) : (s.notWritable w).faulted = s.faulted := rfl
@[simp] theorem notWritable_instr (w : IWord) : (s.notWritable w).instr = s.instr := rfl
@[simp] theorem notWritable_readByte (w : IWord) (c : Addr) : (s.notWritable w).readByte c = s.readByte c := rfl
@[simp] theorem notWritable_flag (w : IWord) (g : Flag) : (s.notWritable w).flag g = s.flag g := rfl
@[simp] theorem completed_out (bus : List Access) : (s.completed bus).out = { status := .ok, info := none, bus := bus } := rfl
@[simp] theorem notWritable_out (w : IWord) :
    (s.notWritable w).out = { status := .notWritable, info := some w, bus := [] } := rfl
@[simp] theorem violated_out (w : Option IWord) :
    (s.violated w).out = { status := .contractViolation, info := w, bus := [] } := rfl
@[simp] theorem violated_faulted (w : Option IWord) : (s.violated w).faulted = true := rfl
@[simp] theorem violated_a (w : Option IWord) : (s.violated w).a = s.a := rfl
@[simp] theorem violated_x (w : Option IWord) : (s.violated w).x = s.x := rfl
@[simp] theorem violated_y (w : Option IWord) : (s.violated w).y = s.y := rfl
@[simp] theorem violated_sp (w : Option IWord) : (s.violated w).sp = s.sp := rfl
@[simp] theorem violated_pc (w : Option IWord) : (s.violated w).pc = s.pc := rfl
@[simp] theorem violated_p (w : Option IWord) : (s.violated w).p = s.p := rfl
@[simp] theorem violated_mem (w : Option IWord) : (s.violated w).mem = s.mem := rfl
@[simp] theorem violated_instr (w : Option IWord) : (s.violated w).instr = s.instr := rfl
@[simp] theorem violated_readByte (w : Option IWord) (c : Addr) : (s.violated w).readByte c = s.readByte c := rfl
@[simp] theorem violated_flag (w : Option IWord) (g : Flag) : (s.violated w).flag g = s.flag g := rfl
@[simp] theorem setPsw_p (v : Byte) : (s.setPsw v).p = restoreByte v := rfl
@[simp] theorem setFlag_p (f : Flag) (b : Bool) : (s.setFlag f b).p = Machine.setFlag s.p f b := rfl
@[simp] theorem setP_flag (v : Byte) (f : Flag) : (s.setP v).flag f = getFlag v f := rfl

end Sys2Proof.Machine.State
end

