-- ==== Sys2Proof/Laws/Flags.lean ====
section
/-! SUPPORT. The flag_calculator: which flags and bits each of its operations writes, and with what. -/

namespace Sys2Proof.Machine

/-- A flag write writes that flag alone (R88). -/
@[simp] theorem getFlag_setFlag (p : Byte) (f g : Flag) (b : Bool) :
    getFlag (setFlag p f b) g = if g = f then b else getFlag p g := by
  cases b <;> cases f <;> cases g <;> simp [getFlag, setFlag, Flag.pos, Flag.mask]

/-- A flag write leaves bit 5 (R26, R88). -/
@[simp] theorem setFlag_bit5 (p : Byte) (f : Flag) (b : Bool) : (setFlag p f b)[5] = p[5] := by
  cases b <;> cases f <;> simp [setFlag, Flag.mask]

/-- A whole byte written into `P` keeps its flags (R28). -/
@[simp] theorem getFlag_restoreByte (v : Byte) (f : Flag) : getFlag (restoreByte v) f = getFlag v f := by
  cases f <;> simp [getFlag, restoreByte, hardwired, Flag.pos]

/-- A whole byte written into `P` has bit 5 at 1 (R26, R28). -/
@[simp] theorem restoreByte_bit5 (v : Byte) : (restoreByte v)[5] = true := by
  simp [restoreByte, hardwired]

/-- `set_nz(v)` (R90). -/
@[simp] theorem getFlag_setNZ (p v : Byte) (g : Flag) :
    getFlag (setNZ p v) g = if g = .z then v == 0x00 else if g = .n then v.msb else getFlag p g := by
  simp [setNZ]

@[simp] theorem setNZ_bit5 (p v : Byte) : (setNZ p v)[5] = p[5] := by simp [setNZ]

@[simp] theorem getFlag_setFlagIf (p : Byte) (f g : Flag) (b : Option Bool) :
    getFlag (setFlagIf p f b) g = if g = f then b.getD (getFlag p f) else getFlag p g := by
  cases b with
  | none => by_cases h : g = f <;> simp [setFlagIf, h]
  | some b => simp [setFlagIf]

@[simp] theorem setFlagIf_bit5 (p : Byte) (f : Flag) (b : Option Bool) :
    (setFlagIf p f b)[5] = p[5] := by cases b <;> simp [setFlagIf]

/-- The flags after an ALU operation (R95). -/
@[simp] theorem getFlag_aluFlags (p : Byte) (o : AluOut) (g : Flag) :
    getFlag (aluFlags p o) g =
      match g with
      | .n => o.r.msb
      | .z => o.r == 0x00
      | .v => o.vout.getD (getFlag p .v)
      | .c => o.cout.getD (getFlag p .c)
      | g => getFlag p g := by
  cases g <;> simp [aluFlags]

@[simp] theorem aluFlags_bit5 (p : Byte) (o : AluOut) : (aluFlags p o)[5] = p[5] := by simp [aluFlags]

/-- The flags after BIT (R204). -/
@[simp] theorem getFlag_bitFlags (p a m : Byte) (g : Flag) :
    getFlag (bitFlags p a m) g =
      match g with
      | .n => m.getLsbD 7
      | .v => m.getLsbD 6
      | .z => (a &&& m) == 0x00
      | g => getFlag p g := by
  cases g <;> simp [bitFlags]

@[simp] theorem bitFlags_bit5 (p a m : Byte) : (bitFlags p a m)[5] = p[5] := by simp [bitFlags]

/-- Two values of `P` with the same flags and the same bit 5 are one. -/
theorem psw_ext {p q : Byte} (h : ∀ f, getFlag p f = getFlag q f) (h5 : p[5] = q[5]) : p = q := by
  refine BitVec.eq_of_getLsbD_eq fun k hk => ?_
  have hs : k = 0 ∨ k = 1 ∨ k = 2 ∨ k = 3 ∨ k = 4 ∨ k = 5 ∨ k = 6 ∨ k = 7 := by omega
  rcases hs with rfl | rfl | rfl | rfl | rfl | rfl | rfl | rfl
  · exact h .c
  · exact h .z
  · exact h .i
  · exact h .d
  · exact h .b
  · simpa using h5
  · exact h .v
  · exact h .n

end Sys2Proof.Machine
end

