-- ==== Sys2Proof/Laws/Memory.lean ====
section
/-! SUPPORT. The byte store: what a read after a write gives, on every list, and that every operation keeps the canonical
form. -/

namespace Sys2Proof.Machine.Memory

theorem read_erase_same (m : Memory) (a : Nat) : (erase m a).read a = Config.unlistedByte := by
  induction m with
  | nil => rfl
  | cons c m ih => obtain ⟨b, w⟩ := c; by_cases h : b = a <;> simp [erase, read, h, ih]

theorem read_erase_other (m : Memory) {a b : Nat} (h : b ≠ a) : (erase m a).read b = m.read b := by
  induction m with
  | nil => rfl
  | cons c m ih =>
    obtain ⟨k, w⟩ := c
    by_cases hk : k = a
    · simp [erase, read, hk, ih, Ne.symm h]
    · simp [erase, read, hk, ih]

theorem read_insert (m : Memory) (a b : Nat) (v : Byte) (ha : ∀ c ∈ m, c.1 ≠ a) : (insert m a v).read b = if b = a then v else m.read b := by
  induction m with
  | nil =>
    by_cases h : b = a
    · simp [insert, read, h]
    · simp [insert, read, h, Ne.symm h]
  | cons c m ih =>
    obtain ⟨k, w⟩ := c
    have hk : k ≠ a := ha (k, w) (by simp)
    have := ih fun c hc => ha c (by simp [hc])
    by_cases hlt : k < a
    · simp only [insert, hlt, if_true, read, this]
      by_cases hb : b = a
      · subst hb; simp [hk]
      · by_cases hkb : k = b <;> simp [hb, hkb]
    · simp only [insert, hlt, if_false]
      by_cases hb : b = a
      · subst hb; simp [read]
      · simp [read, hb, Ne.symm hb]

theorem erase_keys (m : Memory) (a : Nat) : ∀ c ∈ erase m a, c ∈ m ∧ c.1 ≠ a := by
  induction m with
  | nil => simp [erase]
  | cons c m ih =>
    obtain ⟨k, w⟩ := c
    intro d hd
    by_cases hk : k = a
    · simp only [erase, hk, if_true] at hd
      exact ⟨by simp [(ih d hd).1], (ih d hd).2⟩
    · simp only [erase, hk, if_false, List.mem_cons] at hd
      rcases hd with rfl | hd
      · exact ⟨by simp, hk⟩
      · exact ⟨by simp [(ih d hd).1], (ih d hd).2⟩

/-- A read after a write, for every list: the written byte at the address, every other byte as before (R46, R50). -/
theorem read_write (m : Memory) (a b : Nat) (v : Byte) : (write m a v).read b = if b = a then v else m.read b := by
  unfold write
  split
  · next h =>
    by_cases hb : b = a
    · subst hb; simp [read_erase_same, h]
    · simp [hb, read_erase_other m hb]
  · rw [read_insert _ _ _ _ fun c hc => (erase_keys m a c hc).2]
    by_cases hb : b = a
    · simp [hb]
    · simp [hb, read_erase_other m hb]

theorem insert_keys (m : Memory) (a : Nat) (v : Byte) : ∀ c ∈ insert m a v, c = (a, v) ∨ c ∈ m := by
  induction m with
  | nil => simp [insert]
  | cons c m ih =>
    obtain ⟨k, w⟩ := c
    intro d hd
    by_cases hlt : k < a
    · simp only [insert, hlt, if_true, List.mem_cons] at hd
      rcases hd with rfl | hd
      · exact .inr (by simp)
      · rcases ih d hd with h | h
        · exact .inl h
        · exact .inr (by simp [h])
    · simpa [insert, hlt] using hd

theorem erase_wf {m : Memory} (h : m.wf) (a : Nat) : (erase m a).wf := by
  refine ⟨?_, fun c hc => h.2 c (erase_keys m a c hc).1⟩
  have hp := h.1
  clear h
  induction m with
  | nil => exact List.Pairwise.nil
  | cons c m ih =>
    obtain ⟨k, w⟩ := c
    rw [List.pairwise_cons] at hp
    by_cases hk : k = a
    · simpa only [erase, hk, if_true] using ih hp.2
    · simp only [erase, hk, if_false, List.pairwise_cons]
      exact ⟨fun d hd => hp.1 d (erase_keys m a d hd).1, ih hp.2⟩

theorem insert_sorted {m : Memory} (hp : m.Pairwise fun c d => c.1 < d.1) {a : Nat} (ha : ∀ c ∈ m, c.1 ≠ a) (v : Byte) :
    (insert m a v).Pairwise fun c d => c.1 < d.1 := by
  induction m with
  | nil => simp [insert]
  | cons c m ih =>
    obtain ⟨k, w⟩ := c
    rw [List.pairwise_cons] at hp
    have hk : k ≠ a := ha (k, w) (by simp)
    by_cases hlt : k < a
    · simp only [insert, hlt, if_true, List.pairwise_cons]
      refine ⟨fun d hd => ?_, ih hp.2 fun c hc => ha c (by simp [hc])⟩
      rcases insert_keys m a v d hd with rfl | hd
      · exact hlt
      · exact hp.1 d hd
    · have hak : a < k := by omega
      simp only [insert, hlt, if_false, List.pairwise_cons]
      refine ⟨fun d hd => ?_, hp.1, hp.2⟩
      rcases List.mem_cons.1 hd with rfl | hd
      · exact hak
      · exact lt_trans hak (hp.1 d hd)

/-- Every write of a byte inside the address space keeps the canonical form. -/
theorem write_wf {m : Memory} (h : m.wf) {a : Nat} (ha : a < 65536) (v : Byte) : (write m a v).wf := by
  unfold write
  split
  · exact erase_wf h a
  · next hv =>
    have he := erase_wf h a
    refine ⟨insert_sorted he.1 (fun c hc => (erase_keys m a c hc).2) v, fun c hc => ?_⟩
    rcases insert_keys _ a v c hc with rfl | hc
    · exact ⟨ha, hv⟩
    · exact he.2 c hc

/-- The memory of `State.reset` is in canonical form. -/
theorem reset_wf : State.reset.mem.wf := by decide

end Sys2Proof.Machine.Memory
end

