-- ==== Sys2Proof/Laws/Ops.lean ====
section
/-! SUPPORT. What the shared operations over memory and the stack do, field by field. -/

namespace Sys2Proof.Machine

/-- A read after a byte write (R46, R50). -/
@[simp] theorem State.writeByte_readByte (s : State) (a b : Addr) (v : Byte) :
    (s.writeByte a v).readByte b = if b = a then v else s.readByte b := by
  simp [State.writeByte, State.readByte, Memory.read_write, BitVec.toNat_inj]

theorem State.writeByte_wf {s : State} (h : s.mem.wf) (a : Addr) (v : Byte) : (s.writeByte a v).mem.wf :=
  Memory.write_wf h a.isLt v

/-! ### Stack slots -/

theorem stackSlot_toNat (p : Byte) : (stackSlot p).toNat = 256 + p.toNat := by
  have := p.isLt
  have h : (Config.stackPage).toNat = 256 := rfl
  simp only [stackSlot, BitVec.toNat_add, BitVec.toNat_setWidth, h]
  omega

/-- Different values of `SP` name different slots (R23). -/
@[simp] theorem stackSlot_inj (p q : Byte) : stackSlot p = stackSlot q ↔ p = q := by
  rw [← BitVec.toNat_inj, stackSlot_toNat, stackSlot_toNat, ← BitVec.toNat_inj]; omega

/-- A slot is no address outside the stack page (R23, R47). -/
theorem stackSlot_ne {a : Addr} (h : 512 ≤ a.toNat) (p : Byte) : a ≠ stackSlot p := by
  intro e
  have := p.isLt
  have := stackSlot_toNat p
  rw [← e] at this; omega

/-- The vector lies outside the stack page (R47). -/
@[simp] theorem brkVector_ne_slot (p : Byte) : Config.brkVector ≠ stackSlot p := stackSlot_ne (by decide) p

@[simp] theorem brkVector_succ_ne_slot (p : Byte) : Config.brkVector + 1 ≠ stackSlot p := stackSlot_ne (by decide) p

/-- The three slots a trap writes are different (R80). -/
theorem slots_ne (p : Byte) : p ≠ p - 1 ∧ p ≠ p - 1 - 1 ∧ p - 1 ≠ p - 1 - 1 := by
  refine ⟨?_, ?_, ?_⟩ <;> bv_omega

/-- Different stack operations have different codes on `sc_op` (R87). -/
@[simp] theorem StackOp.code_inj (o q : StackOp) : o.code = q.code ↔ o = q := by cases o <;> cases q <;> decide

/-! ### Two bytes as a 16-bit value -/

/-- Little-endian: the high byte counts 256 (R9, R41). -/
theorem append_toNat (hi lo : Byte) : (hi ++ lo : BitVec (8 + 8)).toNat = lo.toNat + 256 * hi.toNat := by
  have := lo.isLt
  rw [BitVec.toNat_append, ← Nat.shiftLeft_add_eq_or_of_lt (by omega), Nat.shiftLeft_eq]
  omega

/-- The two bytes of a 16-bit value put together are the value. -/
@[simp] theorem append_bytes (t : Addr) : (t.extractLsb' 8 8 ++ t.extractLsb' 0 8 : BitVec (8 + 8)) = t := by
  have := t.isLt
  apply BitVec.eq_of_toNat_eq
  rw [append_toNat]
  simp only [BitVec.extractLsb'_toNat, Nat.shiftRight_eq_div_pow]
  omega

/-! ### push and pop -/

section
variable (s : State) (v : Byte)

@[simp] theorem State.push_a : (s.push v).a = s.a := rfl
@[simp] theorem State.push_x : (s.push v).x = s.x := rfl
@[simp] theorem State.push_y : (s.push v).y = s.y := rfl
@[simp] theorem State.push_sp : (s.push v).sp = s.sp - 1 := rfl
@[simp] theorem State.push_pc : (s.push v).pc = s.pc := rfl
@[simp] theorem State.push_p : (s.push v).p = s.p := rfl
@[simp] theorem State.push_psw : (s.push v).psw = s.psw := rfl
@[simp] theorem State.push_faulted : (s.push v).faulted = s.faulted := rfl
@[simp] theorem State.push_instr : (s.push v).instr = s.instr := rfl
@[simp] theorem State.push_out : (s.push v).out = s.out := rfl
@[simp] theorem State.push_flag (f : Flag) : (s.push v).flag f = s.flag f := rfl
@[simp] theorem State.push_readByte (b : Addr) :
    (s.push v).readByte b = if b = stackSlot s.sp then v else s.readByte b := by
  simp [State.push]
theorem State.push_mem : (s.push v).mem = s.mem.write (stackSlot s.sp).toNat v := rfl

@[simp] theorem State.popped_a : s.popped.a = s.a := rfl
@[simp] theorem State.popped_x : s.popped.x = s.x := rfl
@[simp] theorem State.popped_y : s.popped.y = s.y := rfl
@[simp] theorem State.popped_sp : s.popped.sp = s.sp + 1 := rfl
@[simp] theorem State.popped_pc : s.popped.pc = s.pc := rfl
@[simp] theorem State.popped_p : s.popped.p = s.p := rfl
@[simp] theorem State.popped_mem : s.popped.mem = s.mem := rfl
@[simp] theorem State.popped_faulted : s.popped.faulted = s.faulted := rfl
@[simp] theorem State.popped_instr : s.popped.instr = s.instr := rfl
@[simp] theorem State.popped_out : s.popped.out = s.out := rfl
@[simp] theorem State.popped_flag (f : Flag) : s.popped.flag f = s.flag f := rfl
@[simp] theorem State.popped_readByte (b : Addr) : s.popped.readByte b = s.readByte b := rfl
theorem State.popValue_eq : s.popValue = s.readByte (stackSlot (s.sp + 1)) := rfl
end

theorem State.push_wf {s : State} (h : s.mem.wf) (v : Byte) : (s.push v).mem.wf :=
  Memory.write_wf h (stackSlot s.sp).isLt v

/-! ### push_pc and pop_pc -/

section
variable (s : State)

@[simp] theorem State.pushPc_a : s.pushPc.a = s.a := rfl
@[simp] theorem State.pushPc_x : s.pushPc.x = s.x := rfl
@[simp] theorem State.pushPc_y : s.pushPc.y = s.y := rfl
@[simp] theorem State.pushPc_sp : s.pushPc.sp = s.sp - 1 - 1 := rfl
@[simp] theorem State.pushPc_pc : s.pushPc.pc = s.pc := rfl
@[simp] theorem State.pushPc_p : s.pushPc.p = s.p := rfl
@[simp] theorem State.pushPc_faulted : s.pushPc.faulted = s.faulted := rfl
@[simp] theorem State.pushPc_instr : s.pushPc.instr = s.instr := rfl
@[simp] theorem State.pushPc_flag (f : Flag) : s.pushPc.flag f = s.flag f := rfl

/-- The bytes after `push_pc` (R84): the low byte below the high byte, and every other byte as before. -/
@[simp] theorem State.pushPc_readByte (b : Addr) :
    s.pushPc.readByte b =
      if b = stackSlot (s.sp - 1) then s.pc.extractLsb' 0 8
      else if b = stackSlot s.sp then s.pc.extractLsb' 8 8 else s.readByte b := by
  simp [State.pushPc]

@[simp] theorem State.popPc_a : s.popPc.a = s.a := rfl
@[simp] theorem State.popPc_x : s.popPc.x = s.x := rfl
@[simp] theorem State.popPc_y : s.popPc.y = s.y := rfl
@[simp] theorem State.popPc_sp : s.popPc.sp = s.sp + 1 + 1 := rfl
@[simp] theorem State.popPc_p : s.popPc.p = s.p := rfl
@[simp] theorem State.popPc_mem : s.popPc.mem = s.mem := rfl
@[simp] theorem State.popPc_faulted : s.popPc.faulted = s.faulted := rfl
@[simp] theorem State.popPc_instr : s.popPc.instr = s.instr := rfl
@[simp] theorem State.popPc_flag (f : Flag) : s.popPc.flag f = s.flag f := rfl
@[simp] theorem State.popPc_readByte (b : Addr) : s.popPc.readByte b = s.readByte b := rfl
theorem State.popPc_pc :
    s.popPc.pc = s.readByte (stackSlot (s.sp + 1 + 1)) ++ s.readByte (stackSlot (s.sp + 1)) := rfl
end

theorem State.pushPc_wf {s : State} (h : s.mem.wf) : s.pushPc.mem.wf := State.push_wf (State.push_wf h _) _

/-! ### The trap and its return -/

section
variable (s : State)

@[simp] theorem State.takeBreak_a : s.takeBreak.a = s.a := by simp [State.takeBreak]
@[simp] theorem State.takeBreak_x : s.takeBreak.x = s.x := by simp [State.takeBreak]
@[simp] theorem State.takeBreak_y : s.takeBreak.y = s.y := by simp [State.takeBreak]
@[simp] theorem State.takeBreak_sp : s.takeBreak.sp = s.sp - 1 - 1 - 1 := by simp [State.takeBreak]
@[simp] theorem State.takeBreak_p : s.takeBreak.p = Machine.setFlag s.p .b true := by simp [State.takeBreak]
@[simp] theorem State.takeBreak_faulted : s.takeBreak.faulted = s.faulted := by simp [State.takeBreak]
@[simp] theorem State.takeBreak_instr : s.takeBreak.instr = s.instr := by simp [State.takeBreak]

/-- The memory of the trap is that of its three pushes. -/
theorem State.takeBreak_mem : s.takeBreak.mem = (s.pushPc.push s.psw).mem := by simp [State.takeBreak]

/-- The bytes after the trap (R173): `P`, then `PC` low and high, and every other byte as before. -/
@[simp] theorem State.takeBreak_readByte (b : Addr) :
    s.takeBreak.readByte b =
      if b = stackSlot (s.sp - 1 - 1) then s.psw
      else if b = stackSlot (s.sp - 1) then s.pc.extractLsb' 0 8
      else if b = stackSlot s.sp then s.pc.extractLsb' 8 8 else s.readByte b := by
  simp [State.takeBreak]

/-- The handler's address is the vector's two bytes, which the pushes do not touch (R173). -/
theorem State.takeBreak_pc :
    s.takeBreak.pc = s.readByte (Config.brkVector + 1) ++ s.readByte Config.brkVector := by
  simp only [State.takeBreak, State.setPc_pc, State.read16, State.setFlag_readByte, State.push_readByte, State.pushPc_readByte, brkVector_ne_slot, brkVector_succ_ne_slot, if_false]

@[simp] theorem State.returnFromBreak_a : s.returnFromBreak.a = s.a := by simp [State.returnFromBreak]
@[simp] theorem State.returnFromBreak_x : s.returnFromBreak.x = s.x := by simp [State.returnFromBreak]
@[simp] theorem State.returnFromBreak_y : s.returnFromBreak.y = s.y := by simp [State.returnFromBreak]
@[simp] theorem State.returnFromBreak_sp : s.returnFromBreak.sp = s.sp + 1 + 1 + 1 := by simp [State.returnFromBreak]
@[simp] theorem State.returnFromBreak_p :
    s.returnFromBreak.p = restoreByte (s.readByte (stackSlot (s.sp + 1))) := by
  simp [State.returnFromBreak, State.popValue_eq]
@[simp] theorem State.returnFromBreak_mem : s.returnFromBreak.mem = s.mem := by simp [State.returnFromBreak]
@[simp] theorem State.returnFromBreak_faulted : s.returnFromBreak.faulted = s.faulted := by simp [State.returnFromBreak]
@[simp] theorem State.returnFromBreak_instr : s.returnFromBreak.instr = s.instr := by simp [State.returnFromBreak]
@[simp] theorem State.returnFromBreak_readByte (b : Addr) : s.returnFromBreak.readByte b = s.readByte b := by
  simp [State.returnFromBreak]

/-- `PC` after the return (R174): low byte first, above the byte of `P`. -/
theorem State.returnFromBreak_pc :
    s.returnFromBreak.pc =
      s.readByte (stackSlot (s.sp + 1 + 1 + 1)) ++ s.readByte (stackSlot (s.sp + 1 + 1)) := by
  simp [State.returnFromBreak, State.popPc_pc]
end

theorem State.takeBreak_wf {s : State} (h : s.mem.wf) : s.takeBreak.mem.wf := by
  rw [State.takeBreak_mem]; exact State.push_wf (State.pushPc_wf h) _

end Sys2Proof.Machine
end

