-- ==== Sys2Proof/Laws/Operands.lean ====
section
/-! SUPPORT. The resolver, the rule shapes over it, and `perform`: one lemma each that says all they can answer. -/

namespace Sys2Proof.Machine

/-- `get_u8` gives a value for every form but Implicit (R112). -/
theorem getU8_isSome {op : Operand} (h : op.form ≠ .implicit) (s : State) : ∃ m, getU8 op s = some m := by
  cases op <;> simp_all [getU8, getPointer, Operand.form]

/-- All `withValue` can answer. -/
theorem withValue_ok {op : Operand} {s t : State} {r : Byte → State} (h : withValue op s r = .ok t) :
    ∃ m, getU8 op s = some m ∧ t = r m := by
  unfold withValue at h
  split at h
  · cases h
  · next m hm => cases h; exact ⟨m, hm, rfl⟩

/-- All `set_u8` can answer (R113): the byte at the effective address, or the accumulator. -/
theorem setU8_ok {op : Operand} {v : Byte} {s t : State} (h : setU8 op v s = .ok t) :
    writable op = true ∧
      ((∃ a, getPointer op s = some a ∧ t = s.writeByte a v) ∨ (getPointer op s = none ∧ t = s.setA v)) := by
  unfold setU8 at h
  split at h
  · next hw =>
    refine ⟨hw, ?_⟩
    split at h
    · next a ha => cases h; exact .inl ⟨a, ha, rfl⟩
    · next hn => cases h; exact .inr ⟨hn, rfl⟩
  · cases h

/-- All a read-modify-write rule can answer (R117). -/
theorem modify_ok {op : Operand} {s t : State} {f : AluOp} (h : modify op s f = .ok t) :
    ∃ v u, getU8 op s = some v ∧ setU8 op (alu f v 0 (s.flag .c)).r s = .ok u ∧
      t = u.setP (aluFlags u.p (alu f v 0 (s.flag .c))) := by
  unfold modify at h
  split at h
  · cases h
  · next v hv =>
    dsimp only at h
    split at h
    · cases h
    · next u hu => cases h; exact ⟨v, u, hv, hu, rfl⟩

/-- All a rule that takes only Implicit can answer. -/
theorem implicitOnly_ok {op : Operand} {t u : State} (h : implicitOnly op t = .ok u) : op = .implicit ∧ u = t := by
  unfold implicitOnly at h
  split at h
  · cases h; exact ⟨rfl, rfl⟩
  · cases h

/-- All `perform` can answer with a next state: the completed rule, or one of the two error outcomes, and it never runs on a
marked core. -/
theorem perform_next {i : Instr} {s t : State} {e : Effect} (h : perform i s e = .next t) :
    s.faulted = false ∧
      ((pairStatus i.operation i.operand.form = .ok ∧
          ∃ u, e = .ok u ∧ t = u.completed (busTrace i.operation i.operand s u)) ∨
        t = s.notWritable (encode i) ∨ t = s.violated (some (encode i))) := by
  unfold perform at h
  split at h
  · cases h
  · next hf =>
    refine ⟨by simpa using hf, ?_⟩
    split at h
    · cases h; exact .inr (.inl rfl)
    · cases h; exact .inr (.inr rfl)
    · next hp =>
      split at h
      · next u => cases h; exact .inl ⟨hp, u, rfl, rfl⟩
      · cases h; exact .inr (.inl rfl)
      · cases h; exact .inr (.inr rfl)

/-- What `perform` answers for an admitted pair whose rule has an effect. -/
theorem perform_ok {i : Instr} {s u : State} (hf : s.faulted = false) (hw : i.wellFormed = true) :
    perform i s (.ok u) = .next (u.completed (busTrace i.operation i.operand s u)) := by
  have : admits i.operation i.operand.form = true := hw
  simp [perform, hf, pairStatus, this]

/-- A marked core executes nothing. -/
theorem perform_marked {i : Instr} {s : State} {e : Effect} (hf : s.faulted = true) :
    perform i s e = .fault .coreFaulted := by simp [perform, hf]

end Sys2Proof.Machine
end

