-- ==== Sys2Proof/Laws/Step.lean ====
section
/-! SUPPORT. The step and `exec`, each said once: all that `exec`, `execute` and `step` can answer with a next state. -/

namespace Sys2Proof.Machine

/-- Every meaning is a call of `perform` on its own instruction: the outcome of the pair comes first, for all of them. -/
theorem exec_is_perform (i : Instr) (s : State) : ∃ e, exec i s = perform i s e := by
  cases i <;> exact ⟨_, rfl⟩

/-- All `exec` can answer with a next state: an admitted instruction's completed rule, or an error outcome, and it never runs
on a marked core. -/
theorem exec_next {i : Instr} {s t : State} (h : exec i s = .next t) :
    s.faulted = false ∧
      ((i.wellFormed = true ∧ ∃ u, exec i s = perform i s (.ok u) ∧
          t = u.completed (busTrace i.operation i.operand s u)) ∨
        t = s.notWritable (encode i) ∨ t = s.violated (some (encode i))) := by
  obtain ⟨e, he⟩ := exec_is_perform i s
  rw [he] at h ⊢
  obtain ⟨hf, ⟨hp, u, rfl, ht⟩ | h⟩ := perform_next h
  · refine ⟨hf, .inl ⟨?_, u, rfl, ht⟩⟩
    unfold pairStatus at hp
    split at hp
    · assumption
    · split at hp
      · cases hp
      · split at hp <;> cases hp
  · exact ⟨hf, .inr h⟩

/-- All `execute` can answer with a next state. -/
theorem execute_next {w : IWord} {s t : State} (h : execute w s = .next t) :
    s.faulted = false ∧
      ((∃ i, decode w = .ok i ∧ exec i s = .next t) ∨ ((∃ e, decode w = .error e) ∧ t = s.violated (some w))) := by
  unfold execute at h
  split at h
  · cases h
  · next hf =>
    refine ⟨by simpa using hf, ?_⟩
    split at h
    · next i hi => exact .inl ⟨i, hi, h⟩
    · next e he => cases h; exact .inr ⟨⟨e, he⟩, rfl⟩

/-- All a step can answer with a next state: a call on the offered word, a call on the fetched word with `PC` moved past it,
or the violation of a byte with no row. -/
theorem step_next {s t : State} (h : step s = .next t) :
    (∃ w, s.instr = some w ∧ execute w (s.setInstr none) = .next t) ∨
      (s.instr = none ∧ ∃ w n, fetch s = some (w, n) ∧ execute w (s.setPc (s.pc + BitVec.ofNat 16 n)) = .next t) ∨
      (s.instr = none ∧ fetch s = none ∧ s.faulted = false ∧ t = s.violated none) := by
  unfold step nextCall at h
  split at h
  · next w hw => exact .inl ⟨w, hw, h⟩
  · next hn =>
    unfold dispatchStep at h
    split at h
    · cases h
    · next hf =>
      split at h
      · next hfe => cases h; exact .inr (.inr ⟨hn, hfe, by simpa using hf, rfl⟩)
      · next w n hfe => exact .inr (.inl ⟨hn, w, n, hfe, h⟩)

end Sys2Proof.Machine
end

