-- ==== Sys2Proof/Laws/Completion.lean ====
section
/-! SUPPORT. When an admitted instruction completes and what it leaves, one lemma for each shape of rule. -/

namespace Sys2Proof.Machine

variable {i : Instr} {s u : State}

/-- A rule with an effect completes on an admitted pair. -/
theorem completes_of_ok (hf : s.faulted = false) (hw : i.wellFormed = true) (h : exec i s = perform i s (.ok u)) :
    Completes i s (u.completed (busTrace i.operation i.operand s u)) :=
  ⟨h.trans (perform_ok hf hw), rfl, rfl⟩

/-- A rule over the operand's value. -/
theorem completes_withValue {m : Byte} {r : Byte → State} (hf : s.faulted = false) (hw : i.wellFormed = true)
    (h : exec i s = perform i s (withValue i.operand s r)) (hm : getU8 i.operand s = some m) :
    Completes i s ((r m).completed (busTrace i.operation i.operand s (r m))) :=
  completes_of_ok hf hw (by rw [h, withValue, hm])

/-- A read-modify-write rule. -/
theorem completes_modify {v : Byte} {f : AluOp} (hf : s.faulted = false) (hw : i.wellFormed = true)
    (h : exec i s = perform i s (modify i.operand s f)) (hv : getU8 i.operand s = some v)
    (hu : setU8 i.operand (alu f v 0 (s.flag .c)).r s = .ok u) :
    Completes i s ((u.setP (aluFlags u.p (alu f v 0 (s.flag .c)))).completed
      (busTrace i.operation i.operand s (u.setP (aluFlags u.p (alu f v 0 (s.flag .c)))))) :=
  completes_of_ok hf hw (by rw [h, modify, hv]; dsimp only; rw [hu])

/-- A rule that takes only Implicit. -/
theorem completes_implicitOnly (hf : s.faulted = false) (hw : i.wellFormed = true)
    (h : exec i s = perform i s (implicitOnly i.operand u)) (hi : i.operand = .implicit) :
    Completes i s (u.completed (busTrace i.operation i.operand s u)) :=
  completes_of_ok hf hw (by rw [h, hi]; rfl)

/-- A store rule: `set_u8` through an admitted, writable operand with an address. -/
theorem completes_store {v : Byte} {a : Addr} (hf : s.faulted = false) (hw : i.wellFormed = true)
    (h : exec i s = perform i s (setU8 i.operand v s)) (hr : writable i.operand = true)
    (ha : getPointer i.operand s = some a) :
    Completes i s ((s.writeByte a v).completed (busTrace i.operation i.operand s (s.writeByte a v))) :=
  completes_of_ok hf hw (by rw [h, setU8, if_pos hr, ha])

/-- The forms an admitted instruction may have: its own row of the table. -/
theorem form_of_wellFormed (hw : i.wellFormed = true) : ∃ b, (i.operand.form, b) ∈ i.operation.rows := by
  have h : i.operation.rows.any (fun r => r.1 == i.operand.form) = true := hw
  obtain ⟨⟨f, b⟩, hm, he⟩ := List.any_eq_true.1 h
  exact ⟨b, by simpa using (beq_iff_eq.1 he) ▸ hm⟩

end Sys2Proof.Machine
end

