-- ==== Sys2Proof/Laws/Decode.lean ====
section
/-! SUPPORT. The numbering of tags and forms, and the fields of a packed interface word. -/

namespace Sys2Proof

@[simp] theorem Operation.ofTag_tag (o : Operation) : Operation.ofTag o.tag = some o := by cases o <;> rfl

@[simp] theorem Form.ofCode_code (f : Form) : Form.ofCode f.code = some f := by cases f <;> rfl

@[simp] theorem Instr.operation_of (o : Operation) (op : Operand) : (Instr.of o op).operation = o := by cases o <;> rfl

@[simp] theorem Instr.operand_of (o : Operation) (op : Operand) : (Instr.of o op).operand = op := by cases o <;> rfl

@[simp] theorem Instr.of_operation_operand (i : Instr) : Instr.of i.operation i.operand = i := by cases i <;> rfl

/-- Every operation is in the list, so a row's byte is found from its operation. -/
theorem Operation.mem_all (o : Operation) : o ∈ Operation.all := by cases o <;> decide

theorem Form.mem_all (f : Form) : f ∈ Form.all := by cases f <;> decide

/-- The packed word as a number: `(op << 26) OR (mode << 22) OR payload` (R60, R247). -/
theorem packWord_toNat (o : Operation) (f : Form) (p : BitVec 16) :
    (packWord o f p).toNat = o.tag.toNat * 2 ^ 26 + f.code.toNat * 2 ^ 22 + p.toNat := by
  have h0 : (0 : BitVec 6).toNat = 0 := rfl
  have h1 := o.tag.isLt
  have h2 := f.code.isLt
  have h3 := p.isLt
  simp only [packWord, BitVec.toNat_append, h0]
  rw [← Nat.shiftLeft_add_eq_or_of_lt (by omega),
    ← Nat.shiftLeft_add_eq_or_of_lt (by omega), ← Nat.shiftLeft_add_eq_or_of_lt (by omega)]
  simp only [Nat.shiftLeft_eq]
  omega

section
variable (o : Operation) (f : Form) (p : BitVec 16)

@[simp] theorem opField_packWord : opField (packWord o f p) = o.tag := by
  have h1 := o.tag.isLt
  have h2 := f.code.isLt
  have h3 := p.isLt
  apply BitVec.eq_of_toNat_eq
  simp only [opField, BitVec.extractLsb'_toNat, packWord_toNat, Nat.shiftRight_eq_div_pow]
  omega

@[simp] theorem modeField_packWord : modeField (packWord o f p) = f.code := by
  have h1 := o.tag.isLt
  have h2 := f.code.isLt
  have h3 := p.isLt
  apply BitVec.eq_of_toNat_eq
  simp only [modeField, BitVec.extractLsb'_toNat, packWord_toNat, Nat.shiftRight_eq_div_pow]
  omega

@[simp] theorem reservedField_packWord : reservedField (packWord o f p) = 0 := by
  have h1 := o.tag.isLt
  have h2 := f.code.isLt
  have h3 := p.isLt
  apply BitVec.eq_of_toNat_eq
  have h0 : (0 : BitVec 6).toNat = 0 := rfl
  simp only [reservedField, BitVec.extractLsb'_toNat, packWord_toNat, Nat.shiftRight_eq_div_pow, h0]
  omega

@[simp] theorem payloadField_packWord : payloadField (packWord o f p) = p := by
  have h1 := o.tag.isLt
  have h2 := f.code.isLt
  have h3 := p.isLt
  apply BitVec.eq_of_toNat_eq
  simp only [payloadField, BitVec.extractLsb'_toNat, packWord_toNat, Nat.shiftRight_eq_div_pow]
  omega
end

/-- The low byte of a zero-extended byte is the byte. -/
@[simp] theorem payloadByte_setWidth (o : Byte) : payloadByte (o.setWidth 16) = o := by
  have := o.isLt
  apply BitVec.eq_of_toNat_eq
  simp only [payloadByte, BitVec.extractLsb'_toNat, BitVec.toNat_setWidth, Nat.shiftRight_zero]
  omega

end Sys2Proof
end

