-- ==== Sys2Proof/Laws/PerInstr.lean ====
section
/-! SUPPORT. Statements about every instruction, one lemma per constructor. -/

namespace Sys2Proof.Laws.EncodedWord

/-- The interface word of an instruction has the layout of R60: the tag of R62 in bits 31:26, the form of R61 in bits
25:22, zero in bits 21:16, the payload in bits 15:0. -/
def Statement (i : Instr) : Prop :=
  opField (encode i) = i.operation.tag ∧ modeField (encode i) = i.operand.form.code ∧
    reservedField (encode i) = 0 ∧ payloadField (encode i) = i.operand.payload

/-- The layout, from the fields of a packed word. -/
theorem of_packWord (i : Instr) : Statement i := by
  refine ⟨?_, ?_, ?_, ?_⟩ <;> simp [encode]

theorem adc (op : Operand) : Statement (.adc op) := of_packWord _
theorem and (op : Operand) : Statement (.and op) := of_packWord _
theorem asl (op : Operand) : Statement (.asl op) := of_packWord _
theorem bcc (op : Operand) : Statement (.bcc op) := of_packWord _
theorem bcs (op : Operand) : Statement (.bcs op) := of_packWord _
theorem beq (op : Operand) : Statement (.beq op) := of_packWord _
theorem bit (op : Operand) : Statement (.bit op) := of_packWord _
theorem bmi (op : Operand) : Statement (.bmi op) := of_packWord _
theorem bne (op : Operand) : Statement (.bne op) := of_packWord _
theorem bpl (op : Operand) : Statement (.bpl op) := of_packWord _
theorem brk (op : Operand) : Statement (.brk op) := of_packWord _
theorem bvc (op : Operand) : Statement (.bvc op) := of_packWord _
theorem bvs (op : Operand) : Statement (.bvs op) := of_packWord _
theorem clc (op : Operand) : Statement (.clc op) := of_packWord _
theorem cld (op : Operand) : Statement (.cld op) := of_packWord _
theorem cli (op : Operand) : Statement (.cli op) := of_packWord _
theorem clv (op : Operand) : Statement (.clv op) := of_packWord _
theorem cmp (op : Operand) : Statement (.cmp op) := of_packWord _
theorem cpx (op : Operand) : Statement (.cpx op) := of_packWord _
theorem cpy (op : Operand) : Statement (.cpy op) := of_packWord _
theorem dec (op : Operand) : Statement (.dec op) := of_packWord _
theorem dex (op : Operand) : Statement (.dex op) := of_packWord _
theorem dey (op : Operand) : Statement (.dey op) := of_packWord _
theorem eor (op : Operand) : Statement (.eor op) := of_packWord _
theorem inc (op : Operand) : Statement (.inc op) := of_packWord _
theorem inx (op : Operand) : Statement (.inx op) := of_packWord _
theorem iny (op : Operand) : Statement (.iny op) := of_packWord _
theorem jmp (op : Operand) : Statement (.jmp op) := of_packWord _
theorem jsr (op : Operand) : Statement (.jsr op) := of_packWord _
theorem lda (op : Operand) : Statement (.lda op) := of_packWord _
theorem ldx (op : Operand) : Statement (.ldx op) := of_packWord _
theorem ldy (op : Operand) : Statement (.ldy op) := of_packWord _
theorem lsr (op : Operand) : Statement (.lsr op) := of_packWord _
theorem nop (op : Operand) : Statement (.nop op) := of_packWord _
theorem ora (op : Operand) : Statement (.ora op) := of_packWord _
theorem pha (op : Operand) : Statement (.pha op) := of_packWord _
theorem php (op : Operand) : Statement (.php op) := of_packWord _
theorem pla (op : Operand) : Statement (.pla op) := of_packWord _
theorem plp (op : Operand) : Statement (.plp op) := of_packWord _
theorem rol (op : Operand) : Statement (.rol op) := of_packWord _
theorem ror (op : Operand) : Statement (.ror op) := of_packWord _
theorem rti (op : Operand) : Statement (.rti op) := of_packWord _
theorem rts (op : Operand) : Statement (.rts op) := of_packWord _
theorem sbc (op : Operand) : Statement (.sbc op) := of_packWord _
theorem sec (op : Operand) : Statement (.sec op) := of_packWord _
theorem sed (op : Operand) : Statement (.sed op) := of_packWord _
theorem sei (op : Operand) : Statement (.sei op) := of_packWord _
theorem sta (op : Operand) : Statement (.sta op) := of_packWord _
theorem stx (op : Operand) : Statement (.stx op) := of_packWord _
theorem sty (op : Operand) : Statement (.sty op) := of_packWord _
theorem tax (op : Operand) : Statement (.tax op) := of_packWord _
theorem tay (op : Operand) : Statement (.tay op) := of_packWord _
theorem tsx (op : Operand) : Statement (.tsx op) := of_packWord _
theorem txa (op : Operand) : Statement (.txa op) := of_packWord _
theorem txs (op : Operand) : Statement (.txs op) := of_packWord _
theorem tya (op : Operand) : Statement (.tya op) := of_packWord _

end Sys2Proof.Laws.EncodedWord
end

