-- ==== Sys2Proof/Tests/Slice0.lean ====
section
/-! SUPPORT. Tests: what WellFormed and the decoder refuse, a word for every constructor and every form, one step per
instruction with the results of 95_test_vectors.md, and a witness for the hypotheses of every obligation that has any. The
expected words and results are the spec's own, from its tables. -/

namespace Sys2Proof.Tests
open Sys2Proof.Machine Sys2Proof.Claims

/-- The default start state of 95_test_vectors.md section 0. -/
def start : State :=
  { a := 0x00, x := 0x00, y := 0x00, sp := 0xFF, pc := 0x0600, p := 0x20, mem := [], faulted := false, instr := none,
    out := Ports.idle }

/-- One call on an interface word: A, X, Y, SP, PC and P afterwards, then memory and the status port. -/
def after (w : IWord) (s : State) : Option (List Nat × Memory × Nat) :=
  match step (s.withFetchWord 32 w.toNat) with
  | .next t =>
    some ([t.a.toNat, t.x.toNat, t.y.toNat, t.sp.toNat, t.pc.toNat, t.p.toNat], t.mem, t.out.status.code.toNat)
  | _ => none

/-- The next state of an answer, if it is one. -/
def nextState : Result → Option State
  | .next t => some t
  | _ => none

/-- The next state of an instruction, if it has one. -/
def next? (i : Instr) (s : State) : Option State := nextState (exec i s)

/-! ### WellFormed and the decoder refuse what the spec refuses -/

/-- R64: pairs with no row, as T102 to T107 and T98 to T101 name them, and neighbours of rows. -/
theorem test_wellFormed_refuses :
    [Instr.brk (.immediate 0), .adc .implicit, .asl .implicit, .lda .accumulator, .jmp (.zeroPage 0x10), .sta .accumulator,
      .sta (.immediate 0x10), .asl (.immediate 0x81), .inc (.relative 5), .stx .implicit, .lda (.zeroPageY 1),
      .ldx (.zeroPageX 1), .stx (.zeroPageX 1), .sty (.absoluteX 1), .bcc (.absolute 1), .inc .accumulator,
      .bit (.immediate 1), .jsr (.indirect 1), .sta (.indirect 1), .cpx (.zeroPageX 1)].map Instr.wellFormed =
      List.replicate 20 false := by decide

/-- R63 check 1: the first and the last reserved tag. -/
theorem test_decode_refuses_reservedOperation :
    [decode 0xE0000000, decode 0xFC000000] = List.replicate 2 (.error .reservedOperation) := by decide

/-- R63 check 2: the first and the last reserved form. -/
theorem test_decode_refuses_reservedMode :
    [decode 0x03400000, decode 0x03C00000] = List.replicate 2 (.error .reservedMode) := by decide

/-- R63 check 3: the lowest and the highest reserved bit. -/
theorem test_decode_refuses_reservedBits :
    [decode 0x00810000, decode 0x00A00000] = List.replicate 2 (.error .reservedBits) := by decide

/-- R63 check 4: the lowest payload bit a form with no payload, and one with a byte, does not use. -/
theorem test_decode_refuses_unusedPayload :
    [decode 0x28000001, decode 0x08400001, decode 0x00800100, decode 0x00808000] =
      List.replicate 4 (.error .unusedPayload) := by decide

/-- R60 to R62, the fields written out one by one: ALU, control and data families. -/
theorem test_decode_bit_by_bit :
    [decode (0b000000#6 ++ 0b0010#4 ++ 0b000000#6 ++ 0b0000000000000001#16),
      decode (0b011011#6 ++ 0b1010#4 ++ 0b000000#6 ++ 0b0000001011111111#16),
      decode (0b001010#6 ++ 0b0000#4 ++ 0b000000#6 ++ 0b0000000000000000#16),
      decode (0b000011#6 ++ 0b0110#4 ++ 0b000000#6 ++ 0b0000000011111011#16),
      decode (0b101111#6 ++ 0b1011#4 ++ 0b000000#6 ++ 0b0000000000010000#16),
      decode (0b110111#6 ++ 0b0000#4 ++ 0b000000#6 ++ 0b0000000000000000#16)] =
      [.ok (.adc (.immediate 0x01)), .ok (.jmp (.indirect 0x02FF)), .ok (.brk .implicit), .ok (.bcc (.relative 0xFB)),
        .ok (.sta (.indexedIndirect 0x10)), .ok (.tya .implicit)] := by decide

/-- R61: a word for each operand form (words of T22, T68, T76, T95, T70, T42, T23, T97, T75, T54, T73, T74, T94). -/
theorem test_decode_forms :
    [decode 0x80400000, decode 0x74800000, decode 0xBCC00030, decode 0x750000FF, decode 0x794000FF, decode 0x0D8000FB,
      decode 0x81C01234, decode 0x760012FF, decode 0x7640FFF0, decode 0x6E8002FF, decode 0x76C000FF, decode 0x770000FF,
      decode 0x84000000] =
      [.ok (.lsr .accumulator), .ok (.lda (.immediate 0x00)), .ok (.sta (.zeroPage 0x30)), .ok (.lda (.zeroPageX 0xFF)),
        .ok (.ldx (.zeroPageY 0xFF)), .ok (.bcc (.relative 0xFB)), .ok (.lsr (.absolute 0x1234)),
        .ok (.lda (.absoluteX 0x12FF)), .ok (.lda (.absoluteY 0xFFF0)), .ok (.jmp (.indirect 0x02FF)),
        .ok (.lda (.indexedIndirect 0xFF)), .ok (.lda (.indirectIndexed 0xFF)), .ok (.nop .implicit)] := by decide

/-! ### A word of every constructor (the words of 95_test_vectors.md section 3) -/

theorem test_decode_adc : decode 0x00800001 = .ok (.adc (.immediate 0x01)) := by decide
theorem test_decode_and : decode 0x04800080 = .ok (.and (.immediate 0x80)) := by decide
theorem test_decode_asl : decode 0x08400000 = .ok (.asl .accumulator) := by decide
theorem test_decode_bcc : decode 0x0D8000FB = .ok (.bcc (.relative 0xFB)) := by decide
theorem test_decode_bcs : decode 0x11800010 = .ok (.bcs (.relative 0x10)) := by decide
theorem test_decode_beq : decode 0x15800080 = .ok (.beq (.relative 0x80)) := by decide
theorem test_decode_bit : decode 0x18C00010 = .ok (.bit (.zeroPage 0x10)) := by decide
theorem test_decode_bmi : decode 0x1D800002 = .ok (.bmi (.relative 0x02)) := by decide
theorem test_decode_bne : decode 0x2180007F = .ok (.bne (.relative 0x7F)) := by decide
theorem test_decode_bpl : decode 0x258000FE = .ok (.bpl (.relative 0xFE)) := by decide
theorem test_decode_brk : decode 0x28000000 = .ok (.brk .implicit) := by decide
theorem test_decode_bvc : decode 0x2D800005 = .ok (.bvc (.relative 0x05)) := by decide
theorem test_decode_bvs : decode 0x31800005 = .ok (.bvs (.relative 0x05)) := by decide
theorem test_decode_clc : decode 0x34000000 = .ok (.clc .implicit) := by decide
theorem test_decode_cld : decode 0x38000000 = .ok (.cld .implicit) := by decide
theorem test_decode_cli : decode 0x3C000000 = .ok (.cli .implicit) := by decide
theorem test_decode_clv : decode 0x40000000 = .ok (.clv .implicit) := by decide
theorem test_decode_cmp : decode 0x44800001 = .ok (.cmp (.immediate 0x01)) := by decide
theorem test_decode_cpx : decode 0x48800080 = .ok (.cpx (.immediate 0x80)) := by decide
theorem test_decode_cpy : decode 0x4CC00005 = .ok (.cpy (.zeroPage 0x05)) := by decide
theorem test_decode_dec : decode 0x50C00020 = .ok (.dec (.zeroPage 0x20)) := by decide
theorem test_decode_dex : decode 0x54000000 = .ok (.dex .implicit) := by decide
theorem test_decode_dey : decode 0x58000000 = .ok (.dey .implicit) := by decide
theorem test_decode_eor : decode 0x5C80000F = .ok (.eor (.immediate 0x0F)) := by decide
theorem test_decode_inc : decode 0x60C00020 = .ok (.inc (.zeroPage 0x20)) := by decide
theorem test_decode_inx : decode 0x64000000 = .ok (.inx .implicit) := by decide
theorem test_decode_iny : decode 0x68000000 = .ok (.iny .implicit) := by decide
theorem test_decode_jmp : decode 0x6DC0C000 = .ok (.jmp (.absolute 0xC000)) := by decide
theorem test_decode_jsr : decode 0x71C00700 = .ok (.jsr (.absolute 0x0700)) := by decide
theorem test_decode_lda : decode 0x76C000FF = .ok (.lda (.indexedIndirect 0xFF)) := by decide
theorem test_decode_ldx : decode 0x794000FF = .ok (.ldx (.zeroPageY 0xFF)) := by decide
theorem test_decode_ldy : decode 0x7E00FFFF = .ok (.ldy (.absoluteX 0xFFFF)) := by decide
theorem test_decode_lsr : decode 0x80400000 = .ok (.lsr .accumulator) := by decide
theorem test_decode_nop : decode 0x84000000 = .ok (.nop .implicit) := by decide
theorem test_decode_ora : decode 0x88800000 = .ok (.ora (.immediate 0x00)) := by decide
theorem test_decode_pha : decode 0x8C000000 = .ok (.pha .implicit) := by decide
theorem test_decode_php : decode 0x90000000 = .ok (.php .implicit) := by decide
theorem test_decode_pla : decode 0x94000000 = .ok (.pla .implicit) := by decide
theorem test_decode_plp : decode 0x98000000 = .ok (.plp .implicit) := by decide
theorem test_decode_rol : decode 0x9C400000 = .ok (.rol .accumulator) := by decide
theorem test_decode_ror : decode 0xA10000F0 = .ok (.ror (.zeroPageX 0xF0)) := by decide
theorem test_decode_rti : decode 0xA4000000 = .ok (.rti .implicit) := by decide
theorem test_decode_rts : decode 0xA8000000 = .ok (.rts .implicit) := by decide
theorem test_decode_sbc : decode 0xAC800002 = .ok (.sbc (.immediate 0x02)) := by decide
theorem test_decode_sec : decode 0xB0000000 = .ok (.sec .implicit) := by decide
theorem test_decode_sed : decode 0xB4000000 = .ok (.sed .implicit) := by decide
theorem test_decode_sei : decode 0xB8000000 = .ok (.sei .implicit) := by decide
theorem test_decode_sta : decode 0xBEC00010 = .ok (.sta (.indexedIndirect 0x10)) := by decide
theorem test_decode_stx : decode 0xC14000FE = .ok (.stx (.zeroPageY 0xFE)) := by decide
theorem test_decode_sty : decode 0xC5C04000 = .ok (.sty (.absolute 0x4000)) := by decide
theorem test_decode_tax : decode 0xC8000000 = .ok (.tax .implicit) := by decide
theorem test_decode_tay : decode 0xCC000000 = .ok (.tay .implicit) := by decide
theorem test_decode_tsx : decode 0xD0000000 = .ok (.tsx .implicit) := by decide
theorem test_decode_txa : decode 0xD4000000 = .ok (.txa .implicit) := by decide
theorem test_decode_txs : decode 0xD8000000 = .ok (.txs .implicit) := by decide
theorem test_decode_tya : decode 0xDC000000 = .ok (.tya .implicit) := by decide

/-! ### One step of every instruction (the vectors of 95_test_vectors.md section 3) -/

/-- T1: `ADC #$01`. -/
theorem test_adc_T1 :
    after 0x00800001 { start with a := 0xFF } = some ([0x00, 0x00, 0x00, 0xFF, 0x600, 0x23], [], 0) := by decide

/-- T5: `ADC #$00`. -/
theorem test_adc_T5 :
    after 0x00800000 { start with a := 0x7F, p := 0x21 } = some ([0x80, 0x00, 0x00, 0xFF, 0x600, 0xE0], [], 0) := by decide

/-- T15: `AND #$80`. -/
theorem test_and_T15 :
    after 0x04800080 { start with a := 0xC3 } = some ([0x80, 0x00, 0x00, 0xFF, 0x600, 0xA0], [], 0) := by decide

/-- T20: `ASL A`. -/
theorem test_asl_T20 :
    after 0x08400000 { start with a := 0x81 } = some ([0x02, 0x00, 0x00, 0xFF, 0x600, 0x21], [], 0) := by decide

/-- T21: `ASL $40`. -/
theorem test_asl_T21 :
    after 0x08C00040 { start with mem := [(0x0040, 0x40)] } = some ([0x00, 0x00, 0x00, 0xFF, 0x600, 0xA0], [(0x0040, 0x80)], 0) := by decide

/-- T42: `BCC -5`. -/
theorem test_bcc_T42 :
    after 0x0D8000FB { start with pc := 0x0000 } = some ([0x00, 0x00, 0x00, 0xFF, 0xFFFB, 0x20], [], 0) := by decide

/-- T43: `BCC +16`. -/
theorem test_bcc_T43 :
    after 0x0D800010 { start with p := 0x21 } = some ([0x00, 0x00, 0x00, 0xFF, 0x600, 0x21], [], 0) := by decide

/-- T44: `BCS +16`. -/
theorem test_bcs_T44 :
    after 0x11800010 { start with p := 0x21 } = some ([0x00, 0x00, 0x00, 0xFF, 0x610, 0x21], [], 0) := by decide

/-- T45: `BEQ -128`. -/
theorem test_beq_T45 :
    after 0x15800080 { start with p := 0x22 } = some ([0x00, 0x00, 0x00, 0xFF, 0x580, 0x22], [], 0) := by decide

/-- T92: `BIT $10`. -/
theorem test_bit_T92 :
    after 0x18C00010 { start with a := 0x01, mem := [(0x0010, 0xC0)] } = some ([0x01, 0x00, 0x00, 0xFF, 0x600, 0xE2], [(0x0010, 0xC0)], 0) := by decide

/-- T93: `BIT $2000`. -/
theorem test_bit_T93 :
    after 0x19C02000 { start with a := 0xFF, p := 0xE2, mem := [(0x2000, 0x01)] } = some ([0xFF, 0x00, 0x00, 0xFF, 0x600, 0x20], [(0x2000, 0x01)], 0) := by decide

/-- T48: `BMI +2`. -/
theorem test_bmi_T48 :
    after 0x1D800002 { start with pc := 0xFFFF, p := 0xA0 } = some ([0x00, 0x00, 0x00, 0xFF, 0x01, 0xA0], [], 0) := by decide

/-- T46: `BNE +127`. -/
theorem test_bne_T46 :
    after 0x2180007F start = some ([0x00, 0x00, 0x00, 0xFF, 0x67F, 0x20], [], 0) := by decide

/-- T47: `BNE +127`. -/
theorem test_bne_T47 :
    after 0x2180007F { start with p := 0x22 } = some ([0x00, 0x00, 0x00, 0xFF, 0x600, 0x22], [], 0) := by decide

/-- T49: `BPL -2`. -/
theorem test_bpl_T49 :
    after 0x258000FE { start with pc := 0x0602 } = some ([0x00, 0x00, 0x00, 0xFF, 0x600, 0x20], [], 0) := by decide

/-- T58: `BRK`. -/
theorem test_brk_T58 :
    after 0x28000000 { start with pc := 0x0601, p := 0xE3, mem := [(0xFFFF, 0x80)] } = some ([0x00, 0x00, 0x00, 0xFC, 0x8000, 0xF3], [(0x01FD, 0xE3), (0x01FE, 0x01), (0x01FF, 0x06), (0xFFFF, 0x80)], 0) := by decide

/-- T50: `BVC +5`. -/
theorem test_bvc_T50 :
    after 0x2D800005 { start with p := 0x60 } = some ([0x00, 0x00, 0x00, 0xFF, 0x600, 0x60], [], 0) := by decide

/-- T51: `BVS +5`. -/
theorem test_bvs_T51 :
    after 0x31800005 { start with p := 0x60 } = some ([0x00, 0x00, 0x00, 0xFF, 0x605, 0x60], [], 0) := by decide

/-- T61: `CLC`. -/
theorem test_clc_T61 :
    after 0x34000000 { start with p := 0xFF } = some ([0x00, 0x00, 0x00, 0xFF, 0x600, 0xFE], [], 0) := by decide

/-- T66: `CLD`. -/
theorem test_cld_T66 :
    after 0x38000000 { start with p := 0x28 } = some ([0x00, 0x00, 0x00, 0xFF, 0x600, 0x20], [], 0) := by decide

/-- T63: `CLI`. -/
theorem test_cli_T63 :
    after 0x3C000000 { start with p := 0x24 } = some ([0x00, 0x00, 0x00, 0xFF, 0x600, 0x20], [], 0) := by decide

/-- T65: `CLV`. -/
theorem test_clv_T65 :
    after 0x40000000 { start with p := 0x60 } = some ([0x00, 0x00, 0x00, 0xFF, 0x600, 0x20], [], 0) := by decide

/-- T38: `CMP #$01`. -/
theorem test_cmp_T38 :
    after 0x44800001 { start with a := 0xFF } = some ([0xFF, 0x00, 0x00, 0xFF, 0x600, 0xA1], [], 0) := by decide

/-- T39: `CMP #$FF`. -/
theorem test_cmp_T39 :
    after 0x448000FF start = some ([0x00, 0x00, 0x00, 0xFF, 0x600, 0x20], [], 0) := by decide

/-- T40: `CPX #$80`. -/
theorem test_cpx_T40 :
    after 0x48800080 start = some ([0x00, 0x00, 0x00, 0xFF, 0x600, 0xA0], [], 0) := by decide

/-- T41: `CPY $05`. -/
theorem test_cpy_T41 :
    after 0x4CC00005 { start with y := 0x90, mem := [(0x0005, 0x10)] } = some ([0x00, 0x00, 0x90, 0xFF, 0x600, 0xA1], [(0x0005, 0x10)], 0) := by decide

/-- T30: `DEC $20`. -/
theorem test_dec_T30 :
    after 0x50C00020 { start with mem := [] } = some ([0x00, 0x00, 0x00, 0xFF, 0x600, 0xA0], [(0x0020, 0xFF)], 0) := by decide

/-- T34: `DEX`. -/
theorem test_dex_T34 :
    after 0x54000000 start = some ([0x00, 0xFF, 0x00, 0xFF, 0x600, 0xA0], [], 0) := by decide

/-- T35: `DEY`. -/
theorem test_dey_T35 :
    after 0x58000000 { start with y := 0x01 } = some ([0x00, 0x00, 0x00, 0xFF, 0x600, 0x22], [], 0) := by decide

/-- T19: `EOR #$0F`. -/
theorem test_eor_T19 :
    after 0x5C80000F { start with a := 0xF0 } = some ([0xFF, 0x00, 0x00, 0xFF, 0x600, 0xA0], [], 0) := by decide

/-- T28: `INC $20`. -/
theorem test_inc_T28 :
    after 0x60C00020 { start with mem := [(0x0020, 0xFF)] } = some ([0x00, 0x00, 0x00, 0xFF, 0x600, 0x22], [], 0) := by decide

/-- T32: `INX`. -/
theorem test_inx_T32 :
    after 0x64000000 { start with x := 0xFF } = some ([0x00, 0x00, 0x00, 0xFF, 0x600, 0x22], [], 0) := by decide

/-- T33: `INY`. -/
theorem test_iny_T33 :
    after 0x68000000 { start with y := 0x7F } = some ([0x00, 0x00, 0x80, 0xFF, 0x600, 0xA0], [], 0) := by decide

/-- T52: `JMP $C000`. -/
theorem test_jmp_T52 :
    after 0x6DC0C000 { start with pc := 0x0603 } = some ([0x00, 0x00, 0x00, 0xFF, 0xC000, 0x20], [], 0) := by decide

/-- T54: `JMP ($02FF)`. -/
theorem test_jmp_T54 :
    after 0x6E8002FF { start with pc := 0x0603, mem := [(0x0200, 0x90), (0x0300, 0x80)] } = some ([0x00, 0x00, 0x00, 0xFF, 0x8000, 0x20], [(0x0200, 0x90), (0x0300, 0x80)], 0) := by decide

/-- T57: `JSR $0700`. -/
theorem test_jsr_T57 :
    after 0x71C00700 { start with sp := 0x00, pc := 0x0603 } = some ([0x00, 0x00, 0x00, 0xFE, 0x700, 0x20], [(0x0100, 0x06), (0x01FF, 0x03)], 0) := by decide

/-- T73: `LDA ($FF,X)`. -/
theorem test_lda_T73 :
    after 0x76C000FF { start with mem := [(0x0000, 0x12), (0x00FF, 0x34), (0x0100, 0x99), (0x1234, 0x01)] } = some ([0x01, 0x00, 0x00, 0xFF, 0x600, 0x20], [(0x0000, 0x12), (0x00FF, 0x34), (0x0100, 0x99), (0x1234, 0x01)], 0) := by decide

/-- T74: `LDA ($FF),Y`. -/
theorem test_lda_T74 :
    after 0x770000FF { start with y := 0x01, mem := [(0x0000, 0x20), (0x0100, 0x77), (0x2001, 0x66)] } = some ([0x66, 0x00, 0x01, 0xFF, 0x600, 0x20], [(0x0000, 0x20), (0x0100, 0x77), (0x2001, 0x66)], 0) := by decide

/-- T70: `LDX $FF,Y`. -/
theorem test_ldx_T70 :
    after 0x794000FF { start with y := 0x02, mem := [(0x0001, 0x42)] } = some ([0x00, 0x42, 0x02, 0xFF, 0x600, 0x20], [(0x0001, 0x42)], 0) := by decide

/-- T71: `LDY $FFFF,X`. -/
theorem test_ldy_T71 :
    after 0x7E00FFFF { start with x := 0x02, mem := [(0x0001, 0x99)] } = some ([0x00, 0x02, 0x99, 0xFF, 0x600, 0xA0], [(0x0001, 0x99)], 0) := by decide

/-- T22: `LSR A`. -/
theorem test_lsr_T22 :
    after 0x80400000 { start with a := 0x01, p := 0xA0 } = some ([0x00, 0x00, 0x00, 0xFF, 0x600, 0x23], [], 0) := by decide

/-- T23: `LSR $1234`. -/
theorem test_lsr_T23 :
    after 0x81C01234 { start with mem := [(0x1234, 0xFE)] } = some ([0x00, 0x00, 0x00, 0xFF, 0x600, 0x20], [(0x1234, 0x7F)], 0) := by decide

/-- T94: `NOP`. -/
theorem test_nop_T94 :
    after 0x84000000 { start with a := 0x12, x := 0x34, p := 0xFF } = some ([0x12, 0x34, 0x00, 0xFF, 0x600, 0xFF], [], 0) := by decide

/-- T16: `ORA #$00`. -/
theorem test_ora_T16 :
    after 0x88800000 { start with p := 0xA0 } = some ([0x00, 0x00, 0x00, 0xFF, 0x600, 0x22], [], 0) := by decide

/-- T87: `PHA`. -/
theorem test_pha_T87 :
    after 0x8C000000 { start with a := 0x5C, sp := 0x00 } = some ([0x5C, 0x00, 0x00, 0xFF, 0x600, 0x20], [(0x0100, 0x5C)], 0) := by decide

/-- T89: `PHP`. -/
theorem test_php_T89 :
    after 0x90000000 { start with p := 0xEF } = some ([0x00, 0x00, 0x00, 0xFE, 0x600, 0xEF], [(0x01FF, 0xEF)], 0) := by decide

/-- T88: `PLA`. -/
theorem test_pla_T88 :
    after 0x94000000 { start with mem := [(0x0100, 0x80)] } = some ([0x80, 0x00, 0x00, 0x00, 0x600, 0xA0], [(0x0100, 0x80)], 0) := by decide

/-- T90: `PLP`. -/
theorem test_plp_T90 :
    after 0x98000000 { start with sp := 0xFE, mem := [] } = some ([0x00, 0x00, 0x00, 0xFF, 0x600, 0x20], [], 0) := by decide

/-- T91: `PLP`. -/
theorem test_plp_T91 :
    after 0x98000000 { start with sp := 0xFE, mem := [(0x01FF, 0xFF)] } = some ([0x00, 0x00, 0x00, 0xFF, 0x600, 0xFF], [(0x01FF, 0xFF)], 0) := by decide

/-- T25: `ROL A`. -/
theorem test_rol_T25 :
    after 0x9C400000 { start with a := 0x40, p := 0x21 } = some ([0x81, 0x00, 0x00, 0xFF, 0x600, 0xA0], [], 0) := by decide

/-- T27: `ROR $F0,X`. -/
theorem test_ror_T27 :
    after 0xA10000F0 { start with x := 0x20, p := 0x21, mem := [(0x0010, 0x02)] } = some ([0x00, 0x20, 0x00, 0xFF, 0x600, 0xA0], [(0x0010, 0x81)], 0) := by decide

/-- T59: `RTI`. -/
theorem test_rti_T59 :
    after 0xA4000000 { start with sp := 0xFC, pc := 0x8001, p := 0x30, mem := [(0x01FD, 0xC3), (0x01FE, 0x01), (0x01FF, 0x06)] } = some ([0x00, 0x00, 0x00, 0xFF, 0x601, 0xE3], [(0x01FD, 0xC3), (0x01FE, 0x01), (0x01FF, 0x06)], 0) := by decide

/-- T60: `RTI`. -/
theorem test_rti_T60 :
    after 0xA4000000 { start with sp := 0xFC, pc := 0x8001, mem := [(0x01FE, 0x01), (0x01FF, 0x06)] } = some ([0x00, 0x00, 0x00, 0xFF, 0x601, 0x20], [(0x01FE, 0x01), (0x01FF, 0x06)], 0) := by decide

/-- T56: `RTS`. -/
theorem test_rts_T56 :
    after 0xA8000000 { start with sp := 0xFD, pc := 0x0701, mem := [(0x01FE, 0x03), (0x01FF, 0x06)] } = some ([0x00, 0x00, 0x00, 0xFF, 0x603, 0x20], [(0x01FE, 0x03), (0x01FF, 0x06)], 0) := by decide

/-- T8: `SBC #$02`. -/
theorem test_sbc_T8 :
    after 0xAC800002 { start with a := 0x01, p := 0x21 } = some ([0xFF, 0x00, 0x00, 0xFF, 0x600, 0xA0], [], 0) := by decide

/-- T10: `SBC #$01`. -/
theorem test_sbc_T10 :
    after 0xAC800001 { start with a := 0x80, p := 0x21 } = some ([0x7F, 0x00, 0x00, 0xFF, 0x600, 0x61], [], 0) := by decide

/-- T62: `SEC`. -/
theorem test_sec_T62 :
    after 0xB0000000 start = some ([0x00, 0x00, 0x00, 0xFF, 0x600, 0x21], [], 0) := by decide

/-- T67: `SED`. -/
theorem test_sed_T67 :
    after 0xB4000000 start = some ([0x00, 0x00, 0x00, 0xFF, 0x600, 0x28], [], 0) := by decide

/-- T64: `SEI`. -/
theorem test_sei_T64 :
    after 0xB8000000 start = some ([0x00, 0x00, 0x00, 0xFF, 0x600, 0x24], [], 0) := by decide

/-- T79: `STA ($10,X)`. -/
theorem test_sta_T79 :
    after 0xBEC00010 { start with a := 0x5A, x := 0x17, mem := [(0x0027, 0xFC), (0x0028, 0xBA)] } = some ([0x5A, 0x17, 0x00, 0xFF, 0x600, 0x20], [(0x0027, 0xFC), (0x0028, 0xBA), (0xBAFC, 0x5A)], 0) := by decide

/-- T98: `STA #$10`. -/
theorem test_sta_T98 :
    after 0xBC800010 { start with a := 0x01 } = some ([0x01, 0x00, 0x00, 0xFF, 0x600, 0x20], [], 1) := by decide

/-- T77: `STX $FE,Y`. -/
theorem test_stx_T77 :
    after 0xC14000FE { start with x := 0x11, y := 0x03 } = some ([0x00, 0x11, 0x03, 0xFF, 0x600, 0x20], [(0x0001, 0x11)], 0) := by decide

/-- T78: `STY $4000`. -/
theorem test_sty_T78 :
    after 0xC5C04000 { start with y := 0x22 } = some ([0x00, 0x00, 0x22, 0xFF, 0x600, 0x20], [(0x4000, 0x22)], 0) := by decide

/-- T80: `TAX`. -/
theorem test_tax_T80 :
    after 0xC8000000 { start with x := 0x55, p := 0xA0 } = some ([0x00, 0x00, 0x00, 0xFF, 0x600, 0x22], [], 0) := by decide

/-- T82: `TAY`. -/
theorem test_tay_T82 :
    after 0xCC000000 { start with a := 0x01, p := 0x22 } = some ([0x01, 0x00, 0x01, 0xFF, 0x600, 0x20], [], 0) := by decide

/-- T85: `TSX`. -/
theorem test_tsx_T85 :
    after 0xD0000000 { start with x := 0x55, sp := 0x00, p := 0xA0 } = some ([0x00, 0x00, 0x00, 0x00, 0x600, 0xA0], [], 0) := by decide

/-- T81: `TXA`. -/
theorem test_txa_T81 :
    after 0xD4000000 { start with x := 0x80, p := 0x22 } = some ([0x80, 0x80, 0x00, 0xFF, 0x600, 0xA0], [], 0) := by decide

/-- T84: `TXS`. -/
theorem test_txs_T84 :
    after 0xD8000000 start = some ([0x00, 0x00, 0x00, 0x00, 0x600, 0x20], [], 0) := by decide

/-- T83: `TYA`. -/
theorem test_tya_T83 :
    after 0xDC000000 { start with y := 0xFF } = some ([0xFF, 0x00, 0xFF, 0xFF, 0x600, 0xA0], [], 0) := by decide

/-- T103: an unadmitted pair sets the fault mark and answers status 2. -/
theorem test_violation_T103 : next? (.adc .implicit) { start with a := 0x01 } =
    some { start with a := 0x01, faulted := true,
                       out := { status := .contractViolation, info := some 0x00000000, bus := [] } } := by decide

/-- The `sc_op` codes of R87's table: 0 none, 1 push, 2 pop. -/
theorem test_sc_op : [StackOp.none.code, StackOp.push.code, StackOp.pop.code] = [0, 1, 2] := by decide

/-- The accesses of T58 in order: BRK. -/
theorem test_bus_T58 :
    (next? (.brk .implicit) { start with pc := 0x0601, p := 0xE3, mem := [(0xFFFF, 0x80)] }).map (fun t => t.out.bus) =
      some [.write 0x01FF 0x06, .write 0x01FE 0x01, .write 0x01FD 0xE3, .read 0xFFFE 0x00, .read 0xFFFF 0x80] := by decide

/-- P1 step 1, with C set before: the dispatcher fetches CLC at 0x0600 and moves `PC` past it. -/
theorem test_dispatch_P1 : nextState (step { start with p := 0x21, mem := [(0x0600, 0x18)] }) =
    some { start with pc := 0x0601, mem := [(0x0600, 0x18)] } := by decide

/-- P6 step 2: byte 0x02 has no row; the mark is set and `PC` stays. -/
theorem test_dispatch_P6 : nextState (step { start with mem := [(0x0600, 0x02)] }) =
    some { start with mem := [(0x0600, 0x02)], faulted := true,
                       out := { status := .contractViolation, info := none, bus := [] } } := by decide

/-! ### A state and operands that meet the hypotheses of each obligation -/

/-- A start with every flag clear and memory at the ends of the address space and of page zero. -/
def edges : State :=
  { start with x := 0x01, y := 0x02, mem := [(0x0000, 0x12), (0x00FF, 0x34), (0x0100, 0x80), (0xFFFE, 0x11), (0xFFFF, 0x22)] }

/-- A core after a contract violation. -/
def marked : State :=
  { start with faulted := true, out := { status := .contractViolation, info := none, bus := [] } }

theorem start_inv : start.Inv := ⟨by decide, by decide, by decide⟩

theorem marked_inv : marked.Inv := ⟨by decide, by decide, by decide⟩

/-- LaunchTakesItsParameter: a byte at the last address, listed twice. -/
theorem witness_launch :
    ([(0xFFFF, 0x01), (0xFFFF, 0x02)] : List (Addr × Byte)).reverse.find? (fun c => c.1 == 0xFFFF) = some (0xFFFF, 0x02) := by
  decide

/-- StepKeepsTheInvariant: a step that goes on, and one that sets the mark. -/
theorem witness_invariant_step :
    start.Inv ∧ (∃ t, step (start.withFetchWord 32 0x84000000) = .next t ∧ t.faulted = false) ∧
      ∃ t, step (start.withFetchWord 32 0xFC000000) = .next t ∧ t.faulted = true :=
  ⟨start_inv, ⟨_, rfl, rfl⟩, ⟨_, rfl, rfl⟩⟩

/-- HostWritesKeepTheInvariant, HostReadsWhatItWrote: an unmarked and a marked core. -/
theorem witness_host : (start.Inv ∧ start.faulted = false) ∧ marked.Inv ∧ marked.faulted = true :=
  ⟨⟨start_inv, rfl⟩, marked_inv, rfl⟩

/-- EncodeOfDecodeIsTheWord and MalformedWordSetsTheFaultMark: the last tag that decodes and the first that does not. -/
theorem witness_decode : decode 0xDC000000 = .ok (.tya .implicit) ∧ decode 0xE0000000 = .error .reservedOperation ∧
    start.faulted = false := by decide

/-- DecodeAcceptsExactlyTheFourChecks: each clause at the ends of its range: the last tag, the last form, the last payload. -/
theorem witness_checks :
    [decode 0xDF000000, decode 0xDEC000FF, decode 0x0280FFFF, decode 0x01C0FFFF, decode 0x018000FF] =
      [.ok (.tya (.indirectIndexed 0)), .ok (.tya (.indexedIndirect 0xFF)), .ok (.adc (.indirect 0xFFFF)),
        .ok (.adc (.absolute 0xFFFF)), .ok (.adc (.relative 0xFF))] := by decide

/-- ByteStreamCarriesTheWord: the bytes of instructions of length 1, 2 and 3, and three bytes that begin with each. -/
theorem witness_bytes :
    (encodeBytes (.nop .implicit) = some [0xEA] ∧ [0xEA] <+: ([0xEA, 0xFF, 0xFF] : List Byte)) ∧
      (encodeBytes (.bcc (.relative 0xFB)) = some [0x90, 0xFB] ∧ [0x90, 0xFB] <+: ([0x90, 0xFB, 0x01] : List Byte)) ∧
      encodeBytes (.jmp (.indirect 0x02FF)) = some [0x6C, 0xFF, 0x02] := by decide

/-- StepRunsTheOfferedInstruction. -/
theorem witness_offered : (start.withFetchWord 32 0x84000000).instr = some 0x84000000 ∧
    (start.withFetchWord 32 0x84000000).faulted = false ∧ decode 0x84000000 = .ok (.nop .implicit) := by decide

/-- StepRunsTheFetchedInstruction, StepRunsTheBytesInMemory: a three-byte instruction whose bytes wrap past 0xFFFF. -/
theorem witness_fetched :
    fetch { start with pc := 0xFFFE, mem := [(0x0000, 0xC0), (0xFFFE, 0x4C), (0xFFFF, 0x34)] } = some (0x6DC0C034, 3) ∧
      decode 0x6DC0C034 = .ok (.jmp (.absolute 0xC034)) ∧
      encodeBytes (.jmp (.absolute 0xC034)) = some [0x4C, 0x34, 0xC0] ∧ start.faulted = false ∧ start.instr = none := by
  decide

/-- The bytes of that instruction stand at `PC`, as StepRunsTheBytesInMemory asks. -/
theorem witness_bytes_at_pc : ∀ k, k < ([0x4C, 0x34, 0xC0] : List Byte).length →
    ([0x4C, 0x34, 0xC0] : List Byte)[k]? =
      some (({ start with pc := 0xFFFE, mem := [(0x0000, 0xC0), (0xFFFE, 0x4C), (0xFFFF, 0x34)] } : State).readByte
        (0xFFFE + BitVec.ofNat 16 k)) := by decide

/-- ByteWithoutRowSetsTheFaultMark. -/
theorem witness_no_row : byteRow (({ start with mem := [(0x0600, 0xFF)] } : State).readByte 0x0600) = none := by decide

/-- MarkedCoreExecutesNothing. -/
theorem witness_marked : marked.faulted = true := rfl

/-- NotWritablePairsWriteNothing and OtherUnadmittedPairsSetTheFaultMark: each clause, and pairs on both sides of the line
between them. -/
theorem witness_pairs :
    [pairStatus .sta .implicit, pairStatus .sty .relative, pairStatus .asl .immediate, pairStatus .dec .relative] =
        List.replicate 4 .notWritable ∧
      [pairStatus .sta .accumulator, pairStatus .asl .implicit, pairStatus .inc .accumulator, pairStatus .adc .relative] =
        List.replicate 4 .contractViolation ∧
      (Instr.inc .accumulator).wellFormed = false := by decide

/-- The hypotheses of NotWritablePairsWriteNothing as it writes them: a store and a read-modify-write operation. -/
theorem witness_not_writable :
    ((Instr.sty .implicit).operation ∈ [Operation.sta, .stx, .sty] ∧
        (Instr.sty .implicit).operand.form ∈ [Form.implicit, .immediate, .relative]) ∧
      (Instr.dec (.relative 0x80)).operation ∈ [Operation.asl, .lsr, .rol, .ror, .inc, .dec] ∧
        (Instr.dec (.relative 0x80)).operand.form ∈ [Form.immediate, .relative] := by decide

/-- The hypotheses of OtherUnadmittedPairsSetTheFaultMark as it writes them: INC Accumulator. -/
theorem witness_violation : (Instr.inc .accumulator).wellFormed = false ∧
    ¬ ((Instr.inc .accumulator).operation ∈ [Operation.sta, .stx, .sty] ∧
      (Instr.inc .accumulator).operand.form ∈ [Form.implicit, .immediate, .relative]) ∧
    ¬ ((Instr.inc .accumulator).operation ∈ [Operation.asl, .lsr, .rol, .ror, .inc, .dec] ∧
      (Instr.inc .accumulator).operand.form ∈ [Form.immediate, .relative]) := by decide

/-- The statements over `Runs`: every instruction that has a form with an operand, in the form its rule is hardest in. -/
theorem witness_runs :
    ([.adc (.indirectIndexed 0xFF), .sbc (.indexedIndirect 0xFF), .and (.absoluteY 0xFFFF), .ora (.zeroPageX 0xFF),
      .eor (.absoluteX 0xFFFF), .asl .accumulator, .asl (.zeroPageX 0xFF), .lsr .accumulator, .lsr (.absoluteX 0xFFFF),
      .rol .accumulator, .rol (.absolute 0xFFFF), .ror .accumulator, .ror (.zeroPage 0xFF), .inc (.zeroPageX 0xFF),
      .dec (.absoluteX 0xFFFF), .inx .implicit, .iny .implicit, .dex .implicit, .dey .implicit, .cmp (.immediate 0xFF),
      .cpx (.immediate 0x01), .cpy (.absolute 0xFFFF), .clc .implicit, .sec .implicit, .cli .implicit, .sei .implicit,
      .clv .implicit, .cld .implicit, .sed .implicit, .lda (.indirectIndexed 0xFF), .ldx (.zeroPageY 0xFF),
      .ldy (.zeroPageX 0xFF), .sta (.indexedIndirect 0xFF), .stx (.zeroPageY 0xFF), .sty (.zeroPageX 0xFF), .tax .implicit,
      .txa .implicit, .tay .implicit, .tya .implicit, .txs .implicit, .tsx .implicit, .bit (.absolute 0xFFFF),
      .nop .implicit] : List Instr).all (fun i => i.wellFormed) = true ∧ edges.faulted = false := by decide

/-- The two location clauses of the read-modify-write statements: an operand with an address and the accumulator. -/
theorem witness_locations : getPointer (.absoluteX 0xFFFF) edges = some 0x0000 ∧ getPointer .accumulator edges = none := by
  decide

/-- BranchesTestOneFlag: each flag with the value that takes the branch and the value that does not. -/
theorem witness_branches : [Flag.c, .z, .n, .v].all (fun f => edges.flag f == false && (edges.setFlag f true).flag f) = true := by
  decide

/-- AdcAndSbcLaws: the carry clear. -/
theorem witness_carry_clear : edges.faulted = false ∧ edges.flag .c = false := by decide

/-- OperandsReadAndWriteBack: each clause's forms. -/
theorem witness_operands :
    [writable .implicit, writable (.immediate 0), writable (.relative 0x80), writable .accumulator, writable (.indirect 0xFFFF)] =
      [false, false, false, true, true] := by decide

/-- OnlyTheListedInstructionsWriteARegister: each register is changed by some instruction. -/
theorem witness_registers :
    ((next? (.lda (.immediate 0x80)) edges).map fun t => t.a) = some 0x80 ∧
      ((next? (.asl .accumulator) { edges with a := 0x01 }).map fun t => t.a) = some 0x02 ∧
      ((next? (.inx .implicit) edges).map fun t => t.x) = some 0x02 ∧
      ((next? (.iny .implicit) edges).map fun t => t.y) = some 0x03 ∧
      ((next? (.pha .implicit) edges).map fun t => t.sp) = some 0xFE ∧
      ((next? (.jmp (.absolute 0xFFFF)) edges).map fun t => t.pc) = some 0xFFFF := by decide

/-- OnlyTheListedInstructionsWriteAFlag: each flag is changed by some instruction that is neither PLP nor RTI. -/
theorem witness_flags :
    ((next? (.sec .implicit) edges).map fun t => t.p) = some 0x21 ∧
      ((next? (.bit (.zeroPage 0xFF)) { edges with mem := [(0x00FF, 0x40)] }).map fun t => t.p) = some 0x62 ∧
      ((next? (.brk .implicit) edges).map fun t => t.p) = some 0x30 ∧
      ((next? (.sed .implicit) edges).map fun t => t.p) = some 0x28 ∧
      ((next? (.sei .implicit) edges).map fun t => t.p) = some 0x24 ∧
      ((next? (.lda (.immediate 0x80)) edges).map fun t => t.p) = some 0xA0 := by decide

/-- BreakDecimalAndInterruptFlagsAreInert: an instruction that pushes no `P`, with each of the three flags changed. -/
theorem witness_inert : (Instr.adc (.immediate 0x99)).operation ∉ [Operation.php, .brk] ∧
    [Flag.b, .d, .i].all (fun f => (edges.setFlag f true).p != edges.p) = true := by decide

/-- AccessesAccountForMemory, AccessesComeInTheOrderOfTheTable: a call with pointer reads and a write. -/
theorem witness_accesses : ((next? (.sta (.indexedIndirect 0xFE)) edges).map fun t => t.out.bus) =
    some [.read 0x00FF 0x34, .read 0x0000 0x12, .write 0x1234 0x00] := by decide

/-- RunEndsDoNotDependOnTheBudget: a run that halts and a run that faults. -/
theorem witness_runs_end :
    runUntil 0x0601 1 { start with mem := [(0x0600, 0xEA)] } =
        .halted { start with pc := 0x0601, mem := [(0x0600, 0xEA)] } ∧
      runUntil 0x0700 1 { start with mem := [(0x0600, 0xFF)] } =
        .faulted { marked with mem := [(0x0600, 0xFF)] } := by decide

end Sys2Proof.Tests
end

section
/-! PROOFS. The stack primitives push, pop, push_pc and pop_pc as numbers (40_stack_and_flags.md R80 to R83). -/

namespace Sys2Proof.Machine

/-- An address is the slot of `SP` exactly when its number is 0x0100 + `SP` (R23). -/
theorem eq_stackSlot_iff (a : Addr) (p : Byte) : a = stackSlot p ↔ a.toNat = 256 + p.toNat := by
  rw [← BitVec.toNat_inj, stackSlot_toNat]

/-- `SP` goes down by one, 0x00 to 0xFF (R80). -/
theorem State.push_sp_toNat (s : State) (v : Byte) :
    ((s.push v).sp.toNat : Int) = ((s.sp.toNat : Int) - 1) % 256 := by
  rw [State.push_sp]; bv_omega

/-- `SP` goes up by one, 0xFF to 0x00 (R81). -/
theorem State.popped_sp_toNat (s : State) : s.popped.sp.toNat = (s.sp.toNat + 1) % 256 :=
  BitVec.toNat_add s.sp 1

/-- A pop reads the slot `SP` names once it is raised (R81). -/
theorem State.popValue_eq_read (s : State) : s.popValue = s.mem.read (256 + (s.sp.toNat + 1) % 256) := by
  rw [← State.popped_sp_toNat, ← stackSlot_toNat]; rfl

/-- The byte popped first is the low byte of `PC`, the second its high byte (R83). -/
theorem State.popPc_pc_toNat (s : State) :
    s.popPc.pc.toNat = s.popValue.toNat + 256 * s.popped.popValue.toNat :=
  append_toNat s.popped.popValue s.popValue

/-- Settles O51: each clause is the rule of its primitive; the byte a push writes is found by its slot's number. -/
theorem stackPrimitivesMoveOneByte : Obligations.StackPrimitivesMoveOneByte := by
  intro s v
  have hread (a : Addr) :
      (s.push v).readByte a = if a.toNat = 256 + s.sp.toNat then v else s.readByte a := by
    simp only [State.push_readByte, eq_stackSlot_iff]
  exact ⟨s.push_sp_toNat v, hread, s.popped_sp_toNat, s.popValue_eq_read, s.popped_mem,
    rfl, s.pushPc_pc, s.popPc_pc_toNat, rfl, s.popPc_mem⟩

end Sys2Proof.Machine
end

section
/-! PROOFS. The address_mode_resolver: effective addresses as numbers, and `get_u8` and `set_u8` over every operand form
(41_address_mode_resolver.md R100 to R108, R110, R112, R113). -/

namespace Sys2Proof.Machine

/-! ### Effective addresses as numbers -/

/-- A zero-page address has the number of its byte (R101). -/
@[simp] theorem zeroPageAddr_toNat (o : Byte) : (zeroPageAddr o).toNat = o.toNat :=
  BitVec.toNat_setWidth_of_le (by decide)

/-- Indexing a 16-bit base by a byte wraps modulo 65536 (R106, R107, R111). -/
theorem indexed_toNat (a : Addr) (i : Byte) : (a + i.setWidth 16).toNat = (a.toNat + i.toNat) % 65536 := by
  rw [BitVec.toNat_add, BitVec.toNat_setWidth_of_le (by decide)]

/-- A branch target is `PC` plus the signed offset, modulo 65536 (R104). -/
theorem relative_toInt (pc : Addr) (o : Byte) :
    ((pc + o.signExtend 16).toNat : Int) = ((pc.toNat : Int) + o.toInt) % 65536 := by
  have hsign : ((o.signExtend 16).toNat : Int) = o.toInt % 65536 :=
    Int.toNat_of_nonneg (Int.emod_nonneg _ (by decide))
  rw [BitVec.toNat_add]
  push_cast
  rw [hsign, Int.add_emod_emod]

/-- `MemRead16` as a number: the high byte's address wraps modulo 65536 (R42, R108). -/
theorem State.read16_toNat (s : State) (a : Addr) :
    (s.read16 a).toNat = (s.mem.read a.toNat).toNat + 256 * (s.mem.read ((a.toNat + 1) % 65536)).toNat :=
  append_toNat (s.readByte (a + 1)) (s.readByte a)

/-- A zero-page pointer as a number: the high byte's slot wraps modulo 256 (R110, R111). -/
theorem zeroPagePointer_toNat (s : State) (t : Byte) :
    (zeroPagePointer s t).toNat = (s.mem.read t.toNat).toNat + 256 * (s.mem.read ((t.toNat + 1) % 256)).toNat := by
  rw [zeroPagePointer, append_toNat, State.readByte, State.readByte, zeroPageAddr_toNat, zeroPageAddr_toNat,
    BitVec.toNat_add]
  rfl

/-- The pointer of IndexedIndirect: both of its slots wrap modulo 256 (R110). -/
theorem indexedPointer_toNat (s : State) (o i : Byte) :
    (zeroPagePointer s (o + i)).toNat =
      (s.mem.read ((o.toNat + i.toNat) % 256)).toNat + 256 * (s.mem.read ((o.toNat + i.toNat + 1) % 256)).toNat := by
  rw [zeroPagePointer_toNat, BitVec.toNat_add, Nat.mod_add_mod]

/-- Settles O48: each form's address is the sum its rule names, the wrap being that of its width. -/
theorem effectiveAddressesOfTheForms : Obligations.EffectiveAddressesOfTheForms := by
  intro s o a
  have hzp (i : Byte) : (zeroPageAddr (i + o)).toNat = (i.toNat + o.toNat) % 256 := by
    rw [zeroPageAddr_toNat, BitVec.toNat_add]
  exact ⟨rfl, rfl, rfl, congrArg some (zeroPageAddr_toNat o), congrArg some (hzp s.x), congrArg some (hzp s.y),
    congrArg some (relative_toInt s.pc o), rfl, congrArg some (indexed_toNat a s.x), congrArg some (indexed_toNat a s.y),
    congrArg some (s.read16_toNat a), congrArg some (indexedPointer_toNat s o s.x)⟩

/-! ### Values and write backs -/

/-- Implicit is the one operand of its form (R61). -/
theorem form_eq_implicit_iff (op : Operand) : op.form = .implicit ↔ op = .implicit := by
  cases op <;> simp [Operand.form]

/-- `get_u8` is absent for Implicit alone (R112). -/
theorem getU8_eq_none_iff (op : Operand) (s : State) : getU8 op s = none ↔ op = .implicit := by
  constructor
  · intro hn
    by_contra hop
    obtain ⟨m, hm⟩ := getU8_isSome (mt (form_eq_implicit_iff op).1 hop) s
    cases hn.symm.trans hm
  · rintro rfl; rfl

/-- Where there is an effective address, the value is the byte there (R112). -/
theorem getU8_of_getPointer {op : Operand} {s : State} {a : Addr} (ha : getPointer op s = some a) :
    getU8 op s = some (s.readByte a) := by
  cases op with
  | implicit | accumulator | immediate => cases ha
  | _ => exact congrArg (Option.map s.readByte) ha

/-- The forms that cannot be written (R113). -/
theorem writable_eq_false_iff (op : Operand) :
    writable op = false ↔ op.form ∈ [Form.implicit, .immediate, .relative] := by
  cases op <;> simp [writable, Operand.form]

/-- The forms with an effective address: all but Implicit, Accumulator and Immediate (R100). -/
theorem getPointer_isSome {op : Operand} (h : op.form ∉ [Form.implicit, .accumulator, .immediate]) (s : State) :
    ∃ a, getPointer op s = some a := by
  cases op with
  | implicit | accumulator | immediate => simp [Operand.form] at h
  | _ => exact ⟨_, rfl⟩

/-- `set_u8` on an operand that is not writable (R113). -/
theorem setU8_of_not_writable {op : Operand} (h : writable op = false) (v : Byte) (s : State) :
    setU8 op v s = .error .notWritable := by
  simp [setU8, h]

/-- `set_u8` on a writable operand with an effective address (R113). -/
theorem setU8_of_getPointer {op : Operand} {s : State} {a : Addr} (hw : writable op = true)
    (ha : getPointer op s = some a) (v : Byte) : setU8 op v s = .ok (s.writeByte a v) := by
  simp [setU8, hw, ha]

/-- A byte write touches that byte and nothing else (R40, R46). -/
theorem State.writeByte_frame (s : State) (a : Addr) (v : Byte) : Frame [] [] [a] s (s.writeByte a v) where
  regs r _ := by cases r <;> rfl
  flags _ _ := rfl
  bit5 := rfl
  bytes b hb := by simp_all
  mark := rfl
  port := rfl

/-- `set_u8` on a memory form writes the byte at the effective address and nothing else (R113). -/
theorem setU8_memory {op : Operand} (h : op.form ∉ [Form.implicit, .accumulator, .immediate, .relative]) (v : Byte)
    (s : State) : ∃ a, getPointer op s = some a ∧ setU8 op v s = .ok (s.writeByte a v) := by
  obtain ⟨a, ha⟩ := getPointer_isSome (op := op) (by simp_all) s
  have hw : writable op = true := by
    rw [← Bool.not_eq_false, writable_eq_false_iff]; simp_all
  exact ⟨a, ha, setU8_of_getPointer hw ha v⟩

/-- Settles O50: a value is read, and written back, at the operand's own location. -/
theorem operandsReadAndWriteBack : Obligations.OperandsReadAndWriteBack := by
  intro op s v
  refine ⟨getU8_eq_none_iff op s, rfl, rfl, fun a => getU8_of_getPointer,
    fun h => setU8_of_not_writable ((writable_eq_false_iff op).2 h) v s, ?_, fun h => ?_⟩
  · rintro rfl; rfl
  · obtain ⟨a, ha, hset⟩ := setU8_memory h v s
    exact ⟨a, s.writeByte a v, ha, hset, by simp, s.writeByte_frame a v, rfl⟩

end Sys2Proof.Machine
end

section
/-! PROOFS. The Encoding and Exceptions lines of an instruction's rule, from the outcome of its pairs
(60_exceptions.md R221, R222, R224), and the completion of an instruction whose rule has an effect. -/

namespace Sys2Proof.Machine
open Sys2Proof.Claims

/-! ### The outcome of a pair -/

/-- Step 3 of R224: OK is the outcome of the admitted pairs and of no other. -/
theorem pairStatus_eq_ok_iff (o : Operation) (f : Form) : pairStatus o f = .ok ↔ admits o f = true := by
  unfold pairStatus
  split
  · next h => simp [h]
  · next h =>
    simp only [h, iff_false, Bool.false_eq_true]
    split
    · decide
    · split <;> decide

/-- A well-formed instruction is one whose pair has the outcome OK (R64, R224). -/
theorem wellFormed_iff_pairStatus (i : Instr) :
    i.wellFormed = true ↔ pairStatus i.operation i.operand.form = .ok :=
  (pairStatus_eq_ok_iff i.operation i.operand.form).symm

/-- A pair of outcome NotWritable raises NotWritable on an unmarked core (R222). -/
theorem raisesNotWritable_of_pairStatus {i : Instr} {s : State} (hf : s.faulted = false)
    (hp : pairStatus i.operation i.operand.form = .notWritable) : RaisesNotWritable i s := by
  obtain ⟨e, he⟩ := exec_is_perform i s
  have hnext : exec i s = .next (s.notWritable (encode i)) := by simp [he, perform, hf, hp]
  exact ⟨_, hnext, rfl, hf, ⟨rfl, rfl, rfl, rfl, rfl⟩, rfl, rfl⟩

/-- A pair of outcome ContractViolation raises the violation on an unmarked core (R221). -/
theorem raisesViolation_of_pairStatus {i : Instr} {s : State} (hf : s.faulted = false)
    (hp : pairStatus i.operation i.operand.form = .contractViolation) : RaisesViolation i s := by
  obtain ⟨e, he⟩ := exec_is_perform i s
  have hnext : exec i s = .next (s.violated (some (encode i))) := by simp [he, perform, hf, hp]
  exact ⟨_, hnext, rfl, rfl, ⟨rfl, rfl, rfl, rfl, rfl⟩, rfl, rfl⟩

/-- The outcomes of an operation over all forms: OK on `forms`, NotWritable on `unwritable`, so the violation on the
rest. It ranges over the list of the forms, and can be evaluated. -/
abbrev FormOutcomes (o : Operation) (forms unwritable : List Form) : Prop :=
  ∀ f ∈ Form.all, (pairStatus o f = .ok ↔ f ∈ forms) ∧ (pairStatus o f = .notWritable ↔ f ∈ unwritable)

/-- An instruction takes the forms its operation's outcomes name. -/
theorem takesForms_of_outcomes {i : Operand → Instr} {o : Operation} {tag : Nat} {forms unwritable : List Form}
    (hi : ∀ op, i op = Instr.of o op) (htag : o.tag.toNat = tag) (hout : FormOutcomes o forms unwritable) :
    TakesForms i tag forms unwritable := by
  intro op s hf
  obtain ⟨hok, hnw⟩ := hout op.form op.form.mem_all
  have hpair : pairStatus (i op).operation (i op).operand.form = pairStatus o op.form := by
    rw [hi, Instr.operation_of, Instr.operand_of]
  refine ⟨?_, ?_, fun hu => ?_, fun hnf hnu => ?_⟩
  · rw [hi, Instr.operation_of, htag]
  · rw [wellFormed_iff_pairStatus, hpair, hok]
  · exact raisesNotWritable_of_pairStatus hf (hpair.trans (hnw.2 hu))
  · refine raisesViolation_of_pairStatus hf (hpair.trans ?_)
    cases hp : pairStatus o op.form with
    | ok => exact absurd (hok.1 hp) hnf
    | notWritable => exact absurd (hnw.1 hp) hnu
    | contractViolation => rfl

/-- An admitted instruction has one of the forms its rule takes. -/
theorem form_mem_of_runs {i : Operand → Instr} {tag : Nat} {forms unwritable : List Form} {op : Operand} {s : State}
    (htakes : TakesForms i tag forms unwritable) (hrun : Runs (i op) s) : op.form ∈ forms :=
  (htakes op s hrun.1).2.1.1 hrun.2

/-! ### Completion, by the shape of the rule -/

section
variable {i : Operand → Instr} {tag : Nat} {forms unwritable : List Form} {op : Operand} {s : State}

/-- An admitted rule over the operand's value finds one, and completes with its effect (R112, R116). -/
theorem withValue_completes {r : Byte → State} (htakes : TakesForms i tag forms unwritable)
    (himp : Form.implicit ∉ forms) (hexec : exec (i op) s = perform (i op) s (withValue op s r))
    (hrun : Runs (i op) s) :
    ∃ m bus, getU8 op s = some m ∧ Completes (i op) s ((r m).completed bus) := by
  have hform : op.form ≠ .implicit := fun h => himp (h ▸ form_mem_of_runs htakes hrun)
  obtain ⟨m, hm⟩ := getU8_isSome hform s
  have heffect : withValue op s r = .ok (r m) := by rw [withValue, hm]
  exact ⟨m, _, hm, completes_of_ok hrun.1 hrun.2 (hexec.trans (by rw [heffect]))⟩

/-- An admitted rule that takes only Implicit completes with its effect. -/
theorem implicitOnly_completes {u : State} (htakes : TakesForms i tag [.implicit] unwritable)
    (hexec : exec (i op) s = perform (i op) s (implicitOnly op u)) (hrun : Runs (i op) s) :
    ∃ bus, Completes (i op) s (u.completed bus) := by
  obtain rfl : op = .implicit := (form_eq_implicit_iff op).1 (List.mem_singleton.1 (form_mem_of_runs htakes hrun))
  exact ⟨_, completes_of_ok hrun.1 hrun.2 hexec⟩

/-- An admitted read-modify-write rule completes with the flags written over its write back (R117). -/
theorem modify_completes {f : AluOp} {v : Byte} {u : State}
    (hexec : exec (i op) s = perform (i op) s (modify op s f)) (hrun : Runs (i op) s) (hv : getU8 op s = some v)
    (hu : setU8 op (alu f v 0 (s.flag .c)).r s = .ok u) :
    ∃ bus, Completes (i op) s ((u.setP (aluFlags u.p (alu f v 0 (s.flag .c)))).completed bus) := by
  have heffect : modify op s f = .ok (u.setP (aluFlags u.p (alu f v 0 (s.flag .c)))) := by
    simp only [modify, hv, hu]
  exact ⟨_, completes_of_ok hrun.1 hrun.2 (hexec.trans (by rw [heffect]))⟩

end

end Sys2Proof.Machine
end

section
/-! PROOFS. What an instruction of alu_8bit leaves: a write back, the flags of the ALU's outputs over it, and its accesses
on the port (40_stack_and_flags.md R90, R95; 42_alu_8bit.md R120); the frame of each. -/

namespace Sys2Proof.Machine
open Sys2Proof.Claims

/-! ### One register by its name -/

/-- The register of that name written; `State.reg` reads it. -/
def State.setReg (s : State) : RegName → Byte → State
  | .a => s.setA
  | .x => s.setX
  | .y => s.setY
  | .sp => s.setSp

/-- A register write writes that register alone (R21). -/
@[simp] theorem State.setReg_reg (s : State) (r q : RegName) (v : Byte) :
    (s.setReg r v).reg q = if q = r then v else s.reg q := by
  cases r <;> cases q <;> rfl

@[simp] theorem State.setReg_pc (s : State) (r : RegName) (v : Byte) : (s.setReg r v).pc = s.pc := by
  cases r <;> rfl

@[simp] theorem State.setReg_p (s : State) (r : RegName) (v : Byte) : (s.setReg r v).p = s.p := by
  cases r <;> rfl

/-- A register write changes that register and nothing else. -/
theorem State.setReg_frame (s : State) (r : RegName) (v : Byte) : Frame [r] [] [] s (s.setReg r v) where
  regs q hq := (s.setReg_reg r q v).trans (if_neg (by simpa using hq))
  flags _ _ := by cases r <;> rfl
  bit5 := by cases r <;> rfl
  bytes _ _ := by cases r <;> rfl
  mark := by cases r <;> rfl
  port := by cases r <;> rfl

/-- Nothing changed. -/
theorem Frame.refl (s : State) : Frame [] [] [] s s := ⟨fun _ _ => rfl, fun _ _ => rfl, rfl, fun _ _ => rfl, rfl, rfl⟩

/-! ### The ALU's flags over a write back -/

/-- The state an instruction of alu_8bit leaves, from the state `u` after its write back: the flags of the ALU's
outputs (R95) and the accesses of the call. -/
def State.afterAlu (u : State) (o : AluOut) (bus : List Access) : State :=
  (u.setP (aluFlags u.p o)).completed bus

section
variable (u : State) (o : AluOut) (bus : List Access)

@[simp] theorem State.afterAlu_reg (r : RegName) : (u.afterAlu o bus).reg r = u.reg r := by cases r <;> rfl

theorem State.afterAlu_flag (f : Flag) : (u.afterAlu o bus).flag f = getFlag (aluFlags u.p o) f := rfl

/-- N and Z follow the ALU's result (R90). -/
theorem State.afterAlu_nz : NZOf (u.afterAlu o bus) o.r := by
  constructor
  · rw [State.afterAlu_flag, getFlag_aluFlags]; exact BitVec.msb_eq_getLsbD_last o.r
  · rw [State.afterAlu_flag, getFlag_aluFlags]; rfl

end

/-- C is the ALU's carry where it has one (R95). -/
theorem State.afterAlu_c (u : State) {o : AluOut} {b : Bool} (h : o.cout = some b) (bus : List Access) :
    (u.afterAlu o bus).flag .c = b := by
  rw [State.afterAlu_flag, getFlag_aluFlags, h]; rfl

/-- V is the ALU's overflow where it has one (R95). -/
theorem State.afterAlu_v (u : State) {o : AluOut} {b : Bool} (h : o.vout = some b) (bus : List Access) :
    (u.afterAlu o bus).flag .v = b := by
  rw [State.afterAlu_flag, getFlag_aluFlags, h]; rfl

/-- The ALU's flags add N and Z to what a write back may change, and C and V where the ALU has them. -/
theorem Frame.afterAlu {rs : List RegName} {fs : List Flag} {as : List Addr} {s u : State} {o : AluOut}
    (h : Frame rs [] as s u) (hn : .n ∈ fs) (hz : .z ∈ fs) (hc : o.cout = none ∨ .c ∈ fs)
    (hv : o.vout = none ∨ .v ∈ fs) (bus : List Access) : Frame rs fs as s (u.afterAlu o bus) where
  regs r hr := (u.afterAlu_reg o bus r).trans (h.regs r hr)
  flags f hf := by
    refine Eq.trans ?_ (h.flags f List.not_mem_nil)
    rw [State.afterAlu_flag, getFlag_aluFlags]
    cases f with
    | n => exact absurd hn hf
    | z => exact absurd hz hf
    | c => rw [hc.resolve_right hf]; rfl
    | v => rw [hv.resolve_right hf]; rfl
    | b | d | i => rfl
  bit5 := (aluFlags_bit5 u.p o).trans h.bit5
  bytes a ha := h.bytes a ha
  mark := h.mark
  port := h.port

end Sys2Proof.Machine
end

section
/-! PROOFS. The outputs of alu_8bit as numbers (40_stack_and_flags.md R91 to R93). -/

namespace Sys2Proof.Machine

/-- The sum of `add8` at 9 bits does not wrap (R91). -/
theorem add9_toNat (a b : Byte) (cin : Bool) :
    (a.setWidth 9 + b.setWidth 9 + (BitVec.ofBool cin).setWidth 9 : BitVec 9).toNat =
      a.toNat + b.toNat + cin.toNat := by
  have := a.isLt
  have := b.isLt
  have := cin.toNat_lt
  simp only [BitVec.toNat_add, BitVec.toNat_setWidth, BitVec.toNat_ofBool]
  omega

/-- The sum of `add8` wraps modulo 256 (R91). -/
theorem add8_r_toNat (a b : Byte) (cin : Bool) :
    (add8 a b cin).r.toNat = (a.toNat + b.toNat + cin.toNat) % 256 := by
  simp only [add8, BitVec.extractLsb'_toNat, Nat.shiftRight_zero, add9_toNat]

/-- The carry out of `add8` says that the exact sum exceeds 255 (R91). -/
theorem add8_cout (a b : Byte) (cin : Bool) :
    (add8 a b cin).cout = some (decide (255 < a.toNat + b.toNat + cin.toNat)) := by
  have hmsb := BitVec.msb_eq_decide (a.setWidth 9 + b.setWidth 9 + (BitVec.ofBool cin).setWidth 9 : BitVec 9)
  rw [BitVec.msb_eq_getLsbD_last, add9_toNat] at hmsb
  exact congrArg some hmsb

/-- A comparison of sign bits is one of bits 7 (R91, R92). -/
theorem msb_beq_eq_decide (a b : Byte) : (a.msb == b.msb) = decide (a.getLsbD 7 = b.getLsbD 7) := by
  rw [BitVec.msb_eq_getLsbD_last, BitVec.msb_eq_getLsbD_last]; rfl

/-- The overflow of `add8`: one sign in, another out (R91). -/
theorem add8_vout (a b : Byte) (cin : Bool) :
    (add8 a b cin).vout =
      some (decide (a.getLsbD 7 = b.getLsbD 7) && decide ((add8 a b cin).r.getLsbD 7 ≠ a.getLsbD 7)) := by
  simp only [decide_not, ← msb_beq_eq_decide]; rfl

/-- The difference of `sub8` wraps modulo 256, the borrow being the complement of the carry (R92). -/
theorem sub8_r_toNat (a b : Byte) (cin : Bool) :
    ((sub8 a b cin).r.toNat : Int) = ((a.toNat : Int) - b.toNat - (!cin).toNat) % 256 := by
  have := a.isLt
  have := b.isLt
  have := (!cin).toNat_lt
  simp only [sub8, BitVec.toNat_sub, BitVec.toNat_setWidth, BitVec.toNat_ofBool]
  omega

/-- The carry out of `sub8` says that no borrow is taken (R92). -/
theorem sub8_cout (a b : Byte) (cin : Bool) :
    (sub8 a b cin).cout = some (decide (b.toNat + (!cin).toNat ≤ a.toNat)) := by
  have := a.isLt
  have := b.isLt
  have := (!cin).toNat_lt
  simp only [sub8, BitVec.le_def, BitVec.toNat_add, BitVec.toNat_setWidth, BitVec.toNat_ofBool, Option.some.injEq,
    decide_eq_decide]
  omega

/-- The overflow of `sub8`: two signs in, and the result's is not that of the minuend (R92). -/
theorem sub8_vout (a b : Byte) (cin : Bool) :
    (sub8 a b cin).vout =
      some (decide (a.getLsbD 7 ≠ b.getLsbD 7) && decide ((sub8 a b cin).r.getLsbD 7 ≠ a.getLsbD 7)) := by
  simp only [decide_not, ← msb_beq_eq_decide]; rfl

end Sys2Proof.Machine
end

section
/-! PROOFS. The instructions of alu_8bit, by the shape of their rules (42_alu_8bit.md R122 to R142). -/

namespace Sys2Proof.Machine
open Sys2Proof.Claims

/-! ### ADC and SBC -/

theorem adc_takesForms : TakesForms .adc 0 valueForms [] :=
  takesForms_of_outcomes (o := .adc) (fun _ => rfl) rfl (by decide)

theorem sbc_takesForms : TakesForms .sbc 43 valueForms [] :=
  takesForms_of_outcomes (o := .sbc) (fun _ => rfl) rfl (by decide)

/-- ADC and SBC: the ALU's result in `A`, its flags over it, nothing else changed. -/
theorem arithmetic_completes {i : Operand → Instr} {tag : Nat} {g : AluOp} {op : Operand} {s : State}
    (htakes : TakesForms i tag valueForms []) (hexec : exec (i op) s = perform (i op) s (arithmetic g op s))
    (hrun : Runs (i op) s) :
    ∃ m bus, getU8 op s = some m ∧
      Completes (i op) s ((s.setA (alu g s.a m (s.flag .c)).r).afterAlu (alu g s.a m (s.flag .c)) bus) :=
  withValue_completes htakes (by decide) hexec hrun

/-- Settles O22: the ALU's sum, carry and overflow as numbers, over the frame of its flags. -/
theorem adcAddsWithCarry : Obligations.AdcAddsWithCarry := by
  refine ⟨adc_takesForms, fun op s hrun => ?_⟩
  obtain ⟨m, bus, hm, hc⟩ := arithmetic_completes (g := .add) adc_takesForms rfl hrun
  exact ⟨m, _, hm, hc, add8_r_toNat _ _ _, State.afterAlu_c _ (add8_cout _ _ _) bus,
    State.afterAlu_v _ (add8_vout _ _ _) bus, State.afterAlu_nz _ _ bus,
    (s.setReg_frame .a _).afterAlu (by decide) (by decide) (.inr (by decide)) (.inr (by decide)) bus, rfl⟩

/-- Settles O23: the ALU's difference, borrow and overflow as numbers, over the frame of its flags. -/
theorem sbcSubtractsWithBorrow : Obligations.SbcSubtractsWithBorrow := by
  refine ⟨sbc_takesForms, fun op s hrun => ?_⟩
  obtain ⟨m, bus, hm, hc⟩ := arithmetic_completes (g := .sub) sbc_takesForms rfl hrun
  exact ⟨m, _, hm, hc, sub8_r_toNat _ _ _, State.afterAlu_c _ (sub8_cout _ _ _) bus,
    State.afterAlu_v _ (sub8_vout _ _ _) bus, State.afterAlu_nz _ _ bus,
    (s.setReg_frame .a _).afterAlu (by decide) (by decide) (.inr (by decide)) (.inr (by decide)) bus, rfl⟩

/-- Settles O30: the flags are O22's, with the literal as the operand's value; the sum O22 gives and the difference O23
gives cancel modulo 256. -/
theorem adcAndSbcLaws : Obligations.AdcAndSbcLaws := by
  obtain ⟨-, hadc⟩ := adcAddsWithCarry
  obtain ⟨-, hsbc⟩ := sbcSubtractsWithBorrow
  constructor
  · intro s b hf
    obtain ⟨m, t, hm, hc, -, hcarry, hover, -⟩ := hadc (.immediate b) s ⟨hf, rfl⟩
    obtain rfl : b = m := Option.some.inj hm
    exact ⟨t, hc.answer, hcarry, hover⟩
  · intro s b hf hclear
    obtain ⟨m, t, hm, hc, hsum, -, -, -, hframe, -⟩ := hadc (.immediate b) s ⟨hf, rfl⟩
    obtain rfl : b = m := Option.some.inj hm
    have hft : (t.setFlag .c true).faulted = false := hframe.mark.trans hf
    obtain ⟨n, u, hn, hd, hdiff, -⟩ := hsbc (.immediate b) (t.setFlag .c true) ⟨hft, rfl⟩
    obtain rfl : b = n := Option.some.inj hn
    have hset : (t.setFlag .c true).flag .c = true := getFlag_setFlag t.p .c .c true
    rw [hset, State.setFlag_a, hsum, hclear] at hdiff
    refine ⟨t, u, hc.answer, hd.answer, BitVec.eq_of_toNat_eq ?_⟩
    have := s.a.isLt
    simp only [Bool.toNat_false, Bool.not_true] at hdiff
    omega

/-! ### AND, ORA, EOR -/

/-- An ALU operation that writes no C and no V, as a logical instruction runs it. -/
theorem logicalRule_of_alu {i : Operand → Instr} {tag : Nat} {g : AluOp} {f : Byte → Byte → Byte}
    (htakes : TakesForms i tag valueForms [])
    (hexec : ∀ op s, exec (i op) s = perform (i op) s (logical g op s))
    (halu : ∀ a m, alu g a m false = { r := f a m, cout := none, vout := none }) : LogicalRule i tag f := by
  refine ⟨htakes, fun op s hrun => ?_⟩
  obtain ⟨m, bus, hm, hc⟩ := withValue_completes htakes (by decide) (hexec op s) hrun
  simp only [halu] at hc
  exact ⟨m, _, hm, hc, rfl, State.afterAlu_nz _ _ bus,
    (s.setReg_frame .a _).afterAlu (by decide) (by decide) (.inl rfl) (.inl rfl) bus, rfl⟩

/-- Settles O24: the three are one rule over their ALU operation. -/
theorem logicalInstructionsCombineIntoA : Obligations.LogicalInstructionsCombineIntoA := by
  refine ⟨?_, ?_, ?_⟩
  · exact logicalRule_of_alu (takesForms_of_outcomes (o := .and) (fun _ => rfl) rfl (by decide)) (fun _ _ => rfl)
      fun _ _ => rfl
  · exact logicalRule_of_alu (takesForms_of_outcomes (o := .ora) (fun _ => rfl) rfl (by decide)) (fun _ _ => rfl)
      fun _ _ => rfl
  · exact logicalRule_of_alu (takesForms_of_outcomes (o := .eor) (fun _ => rfl) rfl (by decide)) (fun _ _ => rfl)
      fun _ _ => rfl

/-! ### The read-modify-write instructions -/

/-- A form a read-modify-write instruction takes is Accumulator or a memory form. -/
theorem accumulator_or_memory {op : Operand} (h : op.form ∈ Form.accumulator :: modifyForms) :
    op = .accumulator ∨ op.form ∉ [Form.implicit, .accumulator, .immediate, .relative] := by
  cases op with
  | accumulator => exact .inl rfl
  | zeroPage | zeroPageX | absolute | absoluteX => exact .inr (by simp [Operand.form])
  | _ => simp [Operand.form, modifyForms] at h

/-- `set_u8` at the location of a read-modify-write operand (R113, R117): the byte at the effective address, or the
accumulator where there is none, and nothing else. -/
theorem setU8_location {op : Operand} (h : op.form ∈ Form.accumulator :: modifyForms) (r : Byte) (s : State) :
    ∃ u, setU8 op r s = .ok u ∧
      (∀ a, getPointer op s = some a → u.readByte a = r ∧ u.a = s.a) ∧
      (getPointer op s = none → op = .accumulator ∧ u.a = r) ∧
      Frame (if getPointer op s = none then [.a] else []) [] (getPointer op s).toList s u ∧ u.pc = s.pc := by
  obtain rfl | hmem := accumulator_or_memory h
  · exact ⟨s.setA r, rfl, nofun, fun _ => ⟨rfl, rfl⟩, s.setReg_frame .a r, rfl⟩
  · obtain ⟨a, ha, hset⟩ := setU8_memory hmem r s
    refine ⟨s.writeByte a r, hset, ?_, ?_, ?_, rfl⟩ <;> rw [ha]
    · rintro b ⟨⟩
      exact ⟨by simp, rfl⟩
    · exact nofun
    · exact s.writeByte_frame a r

/-- An ALU operation that writes no V, as a read-modify-write instruction runs it (R117). -/
theorem modifyRule_of_alu {i : Operand → Instr} {tag : Nat} {forms : List Form} {g : AluOp} {f : Byte → Bool → Byte}
    {c : Option (Byte → Bool)} (htakes : TakesForms i tag forms [.immediate, .relative])
    (hforms : forms ⊆ .accumulator :: modifyForms)
    (hexec : ∀ op s, exec (i op) s = perform (i op) s (modify op s g))
    (halu : ∀ v cin, alu g v 0 cin = { r := f v cin, cout := c.map (· v), vout := none }) :
    ModifyRule i tag forms f c := by
  refine ⟨htakes, fun op s hrun => ?_⟩
  have hform := hforms (form_mem_of_runs htakes hrun)
  have himp : op.form ≠ .implicit := fun h => absurd (h ▸ hform) (by decide)
  obtain ⟨v, hv⟩ := getU8_isSome himp s
  obtain ⟨u, hu, hmem, hacc, hframe, hpc⟩ := setU8_location hform (f v (s.flag .c)) s
  obtain ⟨bus, hc⟩ := modify_completes (f := g) (hexec op s) hrun hv (by rw [halu]; exact hu)
  rw [halu] at hc
  refine ⟨v, _, hv, hc, hmem, hacc, State.afterAlu_nz u _ bus, fun k hk => ?_, ?_, hpc⟩
  · exact State.afterAlu_c u (by rw [hk]; rfl) bus
  · cases c with
    | none => exact hframe.afterAlu (by decide) (by decide) (.inl rfl) (.inl rfl) bus
    | some k => exact hframe.afterAlu (fs := [.n, .z, .c]) (by decide) (by decide) (.inr (by decide)) (.inl rfl) bus

/-- Settles O25: each is one rule over its ALU operation; the rotates put the old carry where theirs reads it. -/
theorem shiftsWriteBackAndSetCarry : Obligations.ShiftsWriteBackAndSetCarry := by
  have hall : Form.accumulator :: modifyForms ⊆ Form.accumulator :: modifyForms := List.Subset.refl _
  refine ⟨?_, ?_, ?_, ?_⟩
  · exact modifyRule_of_alu (g := .shl) (takesForms_of_outcomes (o := .asl) (fun _ => rfl) rfl (by decide)) hall
      (fun _ _ => rfl) fun _ _ => rfl
  · exact modifyRule_of_alu (g := .shr) (takesForms_of_outcomes (o := .lsr) (fun _ => rfl) rfl (by decide)) hall
      (fun _ _ => rfl) fun _ _ => rfl
  · exact modifyRule_of_alu (g := .rol) (takesForms_of_outcomes (o := .rol) (fun _ => rfl) rfl (by decide)) hall
      (fun _ _ => rfl) fun _ cin => by cases cin <;> rfl
  · exact modifyRule_of_alu (g := .ror) (takesForms_of_outcomes (o := .ror) (fun _ => rfl) rfl (by decide)) hall
      (fun _ _ => rfl) fun _ cin => by cases cin <;> rfl

/-- Settles O26: INC and DEC take the memory forms alone, and their ALU operations write no C. -/
theorem incDecStepAMemoryByte : Obligations.IncDecStepAMemoryByte := by
  have hmem : modifyForms ⊆ Form.accumulator :: modifyForms := List.subset_cons_self _ _
  constructor
  · exact modifyRule_of_alu (takesForms_of_outcomes (o := .inc) (fun _ => rfl) rfl (by decide)) hmem (fun _ _ => rfl)
      fun _ _ => rfl
  · exact modifyRule_of_alu (takesForms_of_outcomes (o := .dec) (fun _ => rfl) rfl (by decide)) hmem (fun _ _ => rfl)
      fun _ _ => rfl

/-! ### INX, INY, DEX, DEY -/

/-- An ALU operation that writes no C and no V, as an instruction runs it on the register it steps. -/
theorem stepRegisterRule_of_alu {i : Operand → Instr} {tag : Nat} {g : AluOp} {r : RegName} {f : Byte → Byte}
    (htakes : TakesForms i tag [.implicit] [])
    (hexec : ∀ op s, exec (i op) s = perform (i op) s (implicitOnly op
      ((s.setReg r (alu g (s.reg r) 0 false).r).setP (aluFlags s.p (alu g (s.reg r) 0 false)))))
    (halu : ∀ v, alu g v 0 false = { r := f v, cout := none, vout := none }) : StepRegisterRule i tag r f := by
  refine ⟨htakes, fun op s hrun => ?_⟩
  obtain ⟨bus, hc⟩ := implicitOnly_completes htakes (hexec op s) hrun
  rw [halu, ← s.setReg_p r (f (s.reg r))] at hc
  have hreg : (s.setReg r (f (s.reg r))).reg r = f (s.reg r) := by simp
  exact ⟨_, hc, (State.afterAlu_reg _ _ bus r).trans hreg, State.afterAlu_nz _ _ bus,
    (s.setReg_frame r _).afterAlu (by decide) (by decide) (.inl rfl) (.inl rfl) bus, s.setReg_pc r _⟩

/-- Settles O27: the four are one rule over their register and their ALU operation. -/
theorem registerStepsWrap : Obligations.RegisterStepsWrap := by
  refine ⟨?_, ?_, ?_, ?_⟩
  · exact stepRegisterRule_of_alu (takesForms_of_outcomes (o := .inx) (fun _ => rfl) rfl (by decide)) (fun _ _ => rfl)
      fun _ => rfl
  · exact stepRegisterRule_of_alu (takesForms_of_outcomes (o := .iny) (fun _ => rfl) rfl (by decide)) (fun _ _ => rfl)
      fun _ => rfl
  · exact stepRegisterRule_of_alu (takesForms_of_outcomes (o := .dex) (fun _ => rfl) rfl (by decide)) (fun _ _ => rfl)
      fun _ => rfl
  · exact stepRegisterRule_of_alu (takesForms_of_outcomes (o := .dey) (fun _ => rfl) rfl (by decide)) (fun _ _ => rfl)
      fun _ => rfl

/-! ### CMP, CPX, CPY -/

/-- The comparison of a register with the operand's value. -/
theorem compareRule_of_cmp {i : Operand → Instr} {tag : Nat} {forms : List Form} {r : RegName}
    (htakes : TakesForms i tag forms []) (himp : Form.implicit ∉ forms)
    (hexec : ∀ op s, exec (i op) s = perform (i op) s (compare (s.reg r) op s)) : CompareRule i tag forms r := by
  refine ⟨htakes, fun op s hrun => ?_⟩
  obtain ⟨m, bus, hm, hc⟩ := withValue_completes htakes himp (hexec op s) hrun
  obtain ⟨hn, hz⟩ := State.afterAlu_nz s (alu .cmp (s.reg r) m false) bus
  refine ⟨m, s.afterAlu (alu .cmp (s.reg r) m false) bus, hm, hc, ?_, ?_, hn,
    (Frame.refl s).afterAlu (by decide) (by decide) (.inr (by decide)) (.inl rfl) bus, rfl⟩
  · rw [s.afterAlu_c (o := alu .cmp (s.reg r) m false) rfl bus, decide_eq_true_iff]
    exact BitVec.le_def
  · rw [hz, decide_eq_true_iff]
    exact sub_eq_zero

/-- Settles O28: the three are one rule over their register. -/
theorem comparesWriteFlagsOnly : Obligations.ComparesWriteFlagsOnly := by
  refine ⟨?_, ?_, ?_⟩
  · exact compareRule_of_cmp (takesForms_of_outcomes (o := .cmp) (fun _ => rfl) rfl (by decide)) (by decide)
      fun _ _ => rfl
  · exact compareRule_of_cmp (takesForms_of_outcomes (o := .cpx) (fun _ => rfl) rfl (by decide)) (by decide)
      fun _ _ => rfl
  · exact compareRule_of_cmp (takesForms_of_outcomes (o := .cpy) (fun _ => rfl) rfl (by decide)) (by decide)
      fun _ _ => rfl

end Sys2Proof.Machine
end

section
/-! PROOFS. JMP, JSR and RTI of branch_jump_controller (43_branch_jump_controller.md R170, R171, R174): where `PC` goes, what
of it stands on the stack, and the frame of each. -/

namespace Sys2Proof.Machine
open Sys2Proof.Claims

/-! ### What a jump, a push of `PC` and a status byte leave -/

/-- `PC` and the output ports are outside the frame: a transfer of control keeps the one before it. -/
theorem Frame.setPc_completed {rs : List RegName} {fs : List Flag} {as : List Addr} {s u : State}
    (h : Frame rs fs as s u) (t : Addr) (bus : List Access) : Frame rs fs as s ((u.setPc t).completed bus) where
  regs r hr := Eq.trans (by cases r <;> rfl) (h.regs r hr)
  flags f hf := h.flags f hf
  bit5 := h.bit5
  bytes a ha := h.bytes a ha
  mark := h.mark
  port := h.port

/-- `push_pc` writes `SP` and the slots of `SP` and of the byte below, and nothing else (R82). -/
theorem State.pushPc_frame (s : State) : Frame [.sp] [] [stackSlot s.sp, stackSlot (s.sp - 1)] s s.pushPc where
  regs r hr := by
    cases r with
    | sp => exact absurd List.mem_cons_self hr
    | a | x | y => rfl
  flags _ _ := rfl
  bit5 := rfl
  bytes a ha := by
    obtain ⟨hhigh, hlow⟩ : a ≠ stackSlot s.sp ∧ a ≠ stackSlot (s.sp - 1) := by simpa using ha
    rw [State.pushPc_readByte, if_neg hlow, if_neg hhigh]
  mark := rfl
  port := rfl

/-- The high byte of `PC` stands at the slot of `SP` (R82): the low byte's slot is another one, at every `SP`. -/
theorem State.pushPc_high (s : State) : s.pushPc.readByte (stackSlot s.sp) = s.pc.extractLsb' 8 8 := by
  have hne : stackSlot s.sp ≠ stackSlot (s.sp - 1) := mt (stackSlot_inj _ _).1 (slots_ne s.sp).1
  rw [State.pushPc_readByte, if_neg hne, if_pos rfl]

/-- The low byte of `PC` stands at the slot below (R82). -/
theorem State.pushPc_low (s : State) : s.pushPc.readByte (stackSlot (s.sp - 1)) = s.pc.extractLsb' 0 8 := by
  rw [State.pushPc_readByte, if_pos rfl]

/-- Bit 5 set once is set (R26). -/
@[simp] theorem restoreByte_restoreByte (v : Byte) : restoreByte (restoreByte v) = restoreByte v := by
  rw [restoreByte, restoreByte, BitVec.or_assoc, BitVec.or_self]

/-! ### JMP -/

theorem jmp_takesForms : TakesForms .jmp 27 [.absolute, .indirect] [] :=
  takesForms_of_outcomes (o := .jmp) (fun _ => rfl) rfl (by decide)

/-- JMP through either of its forms: `PC` is the effective address, and nothing else changes (R170). -/
theorem jmp_completes {op : Operand} {s : State} {t : Addr} (hf : s.faulted = false)
    (hform : op.form ∈ [Form.absolute, .indirect]) (ht : getPointer op s = some t) :
    ∃ u, Completes (.jmp op) s u ∧ u.pc = t ∧ Frame [] [] [] s u := by
  have heffect : jump op s = .ok (s.setPc t) := by
    cases op with
    | absolute | indirect => simp only [jump, ht]
    | _ => simp [Operand.form] at hform
  obtain ⟨-, hadmitted, -⟩ := jmp_takesForms op s hf
  have hexec : exec (.jmp op) s = perform (.jmp op) s (.ok (s.setPc t)) := congrArg (perform (.jmp op) s) heffect
  exact ⟨_, completes_of_ok hf (hadmitted.2 hform) hexec, rfl, (Frame.refl s).setPc_completed t _⟩

/-- Settles O32: both forms are one rule over the effective address; the Indirect one is a little-endian word. -/
theorem jmpGoesToItsTarget : Obligations.JmpGoesToItsTarget := by
  refine ⟨jmp_takesForms, fun s a hf => ⟨?_, ?_⟩⟩
  · exact jmp_completes hf List.mem_cons_self rfl
  · obtain ⟨t, hc, hpc, hframe⟩ := jmp_completes (op := .indirect a) (s := s) hf (by simp [Operand.form]) rfl
    exact ⟨t, hc, hpc ▸ append_toNat _ _, hframe⟩

/-! ### JSR -/

/-- Settles O33: `push_pc`, with its two slots apart at every `SP`, and then the jump. -/
theorem jsrPushesTheReturnAddress : Obligations.JsrPushesTheReturnAddress := by
  refine ⟨takesForms_of_outcomes (o := .jsr) (fun _ => rfl) rfl (by decide), fun s a hf => ?_⟩
  have hsp : s.sp - 1 - 1 = s.sp - 2 := sub_sub s.sp 1 1
  exact ⟨_, completes_of_ok (u := s.pushPc.setPc a) hf rfl rfl, rfl, hsp, s.pushPc_high, s.pushPc_low,
    s.pushPc_frame.setPc_completed a _⟩

/-! ### RTI -/

/-- Settles O36: the three pops of the return, their slots counted from the first `SP`. -/
theorem rtiRestoresPAndPc : Obligations.RtiRestoresPAndPc := by
  refine ⟨takesForms_of_outcomes (o := .rti) (fun _ => rfl) rfl (by decide), fun s hf => ?_⟩
  have htwo : s.sp + 1 + 1 = s.sp + 2 := add_assoc s.sp 1 1
  have hthree : s.sp + 1 + 1 + 1 = s.sp + 3 := by rw [htwo]; exact add_assoc s.sp 2 1
  have hpsw : s.returnFromBreak.psw = restoreByte (s.readByte (stackSlot (s.sp + 1))) := by
    rw [State.psw, State.returnFromBreak_p, restoreByte_restoreByte]
  have hpc : s.returnFromBreak.pc = s.readByte (stackSlot (s.sp + 3)) ++ s.readByte (stackSlot (s.sp + 2)) := by
    rw [State.returnFromBreak_pc, hthree, htwo]
  exact ⟨_, completes_of_ok (u := s.returnFromBreak) hf rfl rfl, hthree, hpsw, hpc, s.returnFromBreak_a,
    s.returnFromBreak_x, s.returnFromBreak_y, s.returnFromBreak_readByte, s.returnFromBreak_faulted,
    s.returnFromBreak_instr⟩

end Sys2Proof.Machine
end

section
/-! PROOFS. What the flag, load, store, transfer and stack instructions leave: the frame of one flag written, of a push and
of a value put into a register with its N and Z (40_stack_and_flags.md R80, R88, R90; 44_control_data.md R180 to R205). -/

namespace Sys2Proof.Machine
open Sys2Proof.Claims

/-! ### Frames put together -/

section
variable {rs rs' : List RegName} {fs fs' : List Flag} {as as' : List Addr} {s t u : State}

/-- The output ports are outside the frame. -/
theorem Frame.completed (h : Frame rs fs as s u) (bus : List Access) : Frame rs fs as s (u.completed bus) :=
  h.setPc_completed u.pc bus

/-- What two effects in a row may change is what either may. -/
theorem Frame.trans (h : Frame rs fs as s t) (h' : Frame rs' fs' as' t u) :
    Frame (rs' ++ rs) (fs' ++ fs) (as' ++ as) s u where
  regs r hr := (h'.regs r (mt (List.mem_append_left _) hr)).trans (h.regs r (mt (List.mem_append_right _) hr))
  flags f hf := (h'.flags f (mt (List.mem_append_left _) hf)).trans (h.flags f (mt (List.mem_append_right _) hf))
  bit5 := h'.bit5.trans h.bit5
  bytes a ha := (h'.bytes a (mt (List.mem_append_left _) ha)).trans (h.bytes a (mt (List.mem_append_right _) ha))
  mark := h'.mark.trans h.mark
  port := h'.port.trans h.port

end

/-! ### One flag, one push, one register with its N and Z -/

@[simp] theorem State.completed_reg (u : State) (bus : List Access) (r : RegName) :
    (u.completed bus).reg r = u.reg r := by
  cases r <;> rfl

/-- A new value of `P` with its bit 5 kept changes the flags it differs in, and nothing else. -/
theorem State.setP_frame {s : State} {p : Byte} {fs : List Flag} (hflags : ∀ f, f ∉ fs → getFlag p f = s.flag f)
    (h5 : p[5] = s.p[5]) : Frame [] fs [] s (s.setP p) where
  regs r _ := by cases r <;> rfl
  flags := hflags
  bit5 := h5
  bytes _ _ := rfl
  mark := rfl
  port := rfl

/-- A flag write changes that flag and nothing else (R88). -/
theorem State.setFlag_frame (s : State) (f : Flag) (b : Bool) : Frame [] [f] [] s (s.setFlag f b) :=
  State.setP_frame (fun g hg => (getFlag_setFlag s.p f g b).trans (if_neg (by simpa using hg))) (setFlag_bit5 s.p f b)

/-- A push changes `SP` and the byte at its slot, and nothing else (R80). -/
theorem State.push_frame (s : State) (v : Byte) : Frame [.sp] [] [stackSlot s.sp] s (s.push v) :=
  (s.writeByte_frame (stackSlot s.sp) v).trans ((s.writeByte (stackSlot s.sp) v).setReg_frame .sp _)

/-- A byte copied with its N and Z: the flags an ALU result would give, with no carry and no overflow (R90, R95). -/
theorem withNZ_completed (u : State) (v : Byte) (bus : List Access) :
    (withNZ u v).completed bus = u.afterAlu { r := v, cout := none, vout := none } bus := rfl

/-- What a byte put into a register with its N and Z leaves: the loads, the transfers and PLA, which pops before it. -/
theorem completes_setReg_withNZ {i : Instr} {s u : State} {r : RegName} {v : Byte} {bus : List Access}
    (hc : Completes i s ((withNZ (u.setReg r v) v).completed bus)) :
    ∃ t, Completes i s t ∧ t.reg r = v ∧ NZOf t v ∧ Frame [r] [.n, .z] [] u t ∧ t.pc = u.pc := by
  rw [withNZ_completed] at hc
  have hreg : (u.setReg r v).reg r = v := by simp
  exact ⟨_, hc, (State.afterAlu_reg _ _ bus r).trans hreg, State.afterAlu_nz _ _ bus,
    (u.setReg_frame r v).afterAlu (by decide) (by decide) (.inl rfl) (.inl rfl) bus, u.setReg_pc r v⟩

end Sys2Proof.Machine
end

section
/-! PROOFS. The flag, load, store, transfer and stack instructions, BIT and NOP, by the shape of their rules
(44_control_data.md R180 to R205). -/

namespace Sys2Proof.Machine
open Sys2Proof.Claims

/-! ### The flag instructions -/

/-- The body of R180, on the flag it names. -/
theorem flagRule_of_setFlag {i : Operand → Instr} {tag : Nat} {f : Flag} {b : Bool}
    (htakes : TakesForms i tag [.implicit] [])
    (hexec : ∀ op s, exec (i op) s = perform (i op) s (flagRule f b op s)) : FlagRule i tag f b := by
  refine ⟨htakes, fun op s hrun => ?_⟩
  obtain ⟨bus, hc⟩ := implicitOnly_completes htakes (hexec op s) hrun
  exact ⟨_, hc, (getFlag_setFlag s.p f f b).trans (if_pos rfl), (s.setFlag_frame f b).completed bus, rfl⟩

/-- Settles O38: the seven are one rule over their flag and its value. -/
theorem flagInstructionsWriteOneFlag : Obligations.FlagInstructionsWriteOneFlag := by
  refine ⟨?_, ?_, ?_, ?_, ?_, ?_, ?_⟩
  · exact flagRule_of_setFlag (takesForms_of_outcomes (o := .clc) (fun _ => rfl) rfl (by decide)) fun _ _ => rfl
  · exact flagRule_of_setFlag (takesForms_of_outcomes (o := .sec) (fun _ => rfl) rfl (by decide)) fun _ _ => rfl
  · exact flagRule_of_setFlag (takesForms_of_outcomes (o := .cli) (fun _ => rfl) rfl (by decide)) fun _ _ => rfl
  · exact flagRule_of_setFlag (takesForms_of_outcomes (o := .sei) (fun _ => rfl) rfl (by decide)) fun _ _ => rfl
  · exact flagRule_of_setFlag (takesForms_of_outcomes (o := .clv) (fun _ => rfl) rfl (by decide)) fun _ _ => rfl
  · exact flagRule_of_setFlag (takesForms_of_outcomes (o := .cld) (fun _ => rfl) rfl (by decide)) fun _ _ => rfl
  · exact flagRule_of_setFlag (takesForms_of_outcomes (o := .sed) (fun _ => rfl) rfl (by decide)) fun _ _ => rfl

/-! ### The loads -/

/-- The operand's value put into a register. -/
theorem loadRule_of_setReg {i : Operand → Instr} {tag : Nat} {forms : List Form} {r : RegName}
    (htakes : TakesForms i tag forms []) (himp : Form.implicit ∉ forms)
    (hexec : ∀ op s, exec (i op) s = perform (i op) s (withValue op s fun m => withNZ (s.setReg r m) m)) :
    LoadRule i tag forms r := by
  refine ⟨htakes, fun op s hrun => ?_⟩
  obtain ⟨m, bus, hm, hc⟩ := withValue_completes htakes himp (hexec op s) hrun
  obtain ⟨t, ht⟩ := completes_setReg_withNZ hc
  exact ⟨m, t, hm, ht⟩

/-- Settles O39: the three are one rule over their register. -/
theorem loadsSetTheRegister : Obligations.LoadsSetTheRegister := by
  refine ⟨?_, ?_, ?_⟩
  · exact loadRule_of_setReg (takesForms_of_outcomes (o := .lda) (fun _ => rfl) rfl (by decide)) (by decide)
      fun _ _ => rfl
  · exact loadRule_of_setReg (takesForms_of_outcomes (o := .ldx) (fun _ => rfl) rfl (by decide)) (by decide)
      fun _ _ => rfl
  · exact loadRule_of_setReg (takesForms_of_outcomes (o := .ldy) (fun _ => rfl) rfl (by decide)) (by decide)
      fun _ _ => rfl

/-! ### The stores -/

/-- A register written through an operand all of whose forms are memory forms. -/
theorem storeRule_of_setU8 {i : Operand → Instr} {tag : Nat} {forms : List Form} {r : RegName}
    (htakes : TakesForms i tag forms [.implicit, .immediate, .relative])
    (hmem : ∀ f ∈ forms, f ∉ [Form.implicit, .accumulator, .immediate, .relative])
    (hexec : ∀ op s, exec (i op) s = perform (i op) s (setU8 op (s.reg r) s)) : StoreRule i tag forms r := by
  refine ⟨htakes, fun op s hrun => ?_⟩
  obtain ⟨a, ha, hset⟩ := setU8_memory (hmem op.form (form_mem_of_runs htakes hrun)) (s.reg r) s
  have heffect : exec (i op) s = perform (i op) s (.ok (s.writeByte a (s.reg r))) := (hexec op s).trans (by rw [hset])
  exact ⟨a, _, ha, completes_of_ok hrun.1 hrun.2 heffect, by simp, (s.writeByte_frame a (s.reg r)).completed _, rfl⟩

/-- Settles O40: the three are one rule over their register. -/
theorem storesWriteOneByte : Obligations.StoresWriteOneByte := by
  refine ⟨?_, ?_, ?_⟩
  · exact storeRule_of_setU8 (takesForms_of_outcomes (o := .sta) (fun _ => rfl) rfl (by decide)) (by decide)
      fun _ _ => rfl
  · exact storeRule_of_setU8 (takesForms_of_outcomes (o := .stx) (fun _ => rfl) rfl (by decide)) (by decide)
      fun _ _ => rfl
  · exact storeRule_of_setU8 (takesForms_of_outcomes (o := .sty) (fun _ => rfl) rfl (by decide)) (by decide)
      fun _ _ => rfl

/-! ### The transfers -/

/-- A register copied into another, with N and Z from it. -/
theorem transferRule_of_setReg {i : Operand → Instr} {tag : Nat} {src dst : RegName}
    (htakes : TakesForms i tag [.implicit] [])
    (hexec : ∀ op s, exec (i op) s =
      perform (i op) s (implicitOnly op (withNZ (s.setReg dst (s.reg src)) (s.reg src)))) :
    TransferRule i tag src dst := by
  refine ⟨htakes, fun op s hrun => ?_⟩
  obtain ⟨bus, hc⟩ := implicitOnly_completes htakes (hexec op s) hrun
  exact completes_setReg_withNZ hc

/-- Settles O41: the four are one rule over their two registers. -/
theorem transfersSetNAndZ : Obligations.TransfersSetNAndZ := by
  refine ⟨?_, ?_, ?_, ?_⟩
  · exact transferRule_of_setReg (takesForms_of_outcomes (o := .tax) (fun _ => rfl) rfl (by decide)) fun _ _ => rfl
  · exact transferRule_of_setReg (takesForms_of_outcomes (o := .txa) (fun _ => rfl) rfl (by decide)) fun _ _ => rfl
  · exact transferRule_of_setReg (takesForms_of_outcomes (o := .tay) (fun _ => rfl) rfl (by decide)) fun _ _ => rfl
  · exact transferRule_of_setReg (takesForms_of_outcomes (o := .tya) (fun _ => rfl) rfl (by decide)) fun _ _ => rfl

/-- A register copied into another, and no flag. -/
theorem silentTransferRule_of_setReg {i : Operand → Instr} {tag : Nat} {src dst : RegName}
    (htakes : TakesForms i tag [.implicit] [])
    (hexec : ∀ op s, exec (i op) s = perform (i op) s (implicitOnly op (s.setReg dst (s.reg src)))) :
    SilentTransferRule i tag src dst := by
  refine ⟨htakes, fun op s hrun => ?_⟩
  obtain ⟨bus, hc⟩ := implicitOnly_completes htakes (hexec op s) hrun
  exact ⟨_, hc, by simp, (s.setReg_frame dst _).completed bus, s.setReg_pc dst _⟩

/-- Settles O42: the two are one rule over their two registers. -/
theorem stackPointerTransfersWriteNoFlag : Obligations.StackPointerTransfersWriteNoFlag := by
  constructor
  · exact silentTransferRule_of_setReg (takesForms_of_outcomes (o := .txs) (fun _ => rfl) rfl (by decide))
      fun _ _ => rfl
  · exact silentTransferRule_of_setReg (takesForms_of_outcomes (o := .tsx) (fun _ => rfl) rfl (by decide))
      fun _ _ => rfl

/-! ### PHA, PHP, PLA, PLP -/

/-- An admitted instruction that pushes one byte. -/
theorem completes_push {i : Instr} {s : State} {v : Byte} (hf : s.faulted = false) (hw : i.wellFormed = true)
    (hexec : exec i s = perform i s (.ok (s.push v))) :
    ∃ t, Completes i s t ∧ t.readByte (stackSlot s.sp) = v ∧ t.sp = s.sp - 1 ∧
      Frame [.sp] [] [stackSlot s.sp] s t ∧ t.pc = s.pc :=
  ⟨_, completes_of_ok hf hw hexec, by simp, rfl, (s.push_frame v).completed _, rfl⟩

/-- Settles O43: both are one push, of `A` or of `P` as it reads. -/
theorem pushInstructionsWriteTheStack : Obligations.PushInstructionsWriteTheStack := by
  refine ⟨?_, ?_, fun s hf => ⟨?_, ?_⟩⟩
  · exact takesForms_of_outcomes (o := .pha) (fun _ => rfl) rfl (by decide)
  · exact takesForms_of_outcomes (o := .php) (fun _ => rfl) rfl (by decide)
  · exact completes_push (v := s.a) hf rfl rfl
  · exact completes_push (v := s.psw) hf rfl rfl

/-- Settles O44: `SP` is raised, and the byte at its slot is put into `A` as a load would. -/
theorem plaPopsTheAccumulator : Obligations.PlaPopsTheAccumulator := by
  refine ⟨takesForms_of_outcomes (o := .pla) (fun _ => rfl) rfl (by decide), fun s hf => ?_⟩
  have hdone := completes_of_ok (i := .pla .implicit) (u := withNZ (s.popped.setA s.popValue) s.popValue) hf rfl rfl
  obtain ⟨t, hc, (ha : t.a = s.popValue), hnz, hframe, hpc⟩ := completes_setReg_withNZ (u := s.popped) (r := .a) hdone
  have hsp : t.sp = s.popped.sp := hframe.regs .sp (by decide)
  have hpopped : Frame [.sp] [] [] s s.popped := s.setReg_frame .sp _
  exact ⟨t, hc, hsp, ha, ha ▸ hnz, hpopped.trans hframe, hpc⟩

/-- Settles O45: the flags of the popped byte are kept when its bit 5 is set. -/
theorem plpRestoresTheWholeByte : Obligations.PlpRestoresTheWholeByte := by
  refine ⟨takesForms_of_outcomes (o := .plp) (fun _ => rfl) rfl (by decide), fun s hf => ?_⟩
  exact ⟨_, completes_of_ok (u := s.popped.setPsw s.popValue) hf rfl rfl, rfl, getFlag_restoreByte s.popValue,
    restoreByte_bit5 s.popValue, rfl, rfl, rfl, rfl, fun _ => rfl, rfl, rfl⟩

/-! ### BIT and NOP -/

/-- BIT writes Z, N and V and nothing else (R204). -/
theorem State.bitFlags_frame (s : State) (m : Byte) :
    Frame [] [.z, .n, .v] [] s (s.setP (bitFlags s.p s.a m)) := by
  refine State.setP_frame (fun f hf => ?_) (bitFlags_bit5 s.p s.a m)
  rw [getFlag_bitFlags]
  cases f with
  | n | v | z => simp at hf
  | b | d | i | c => rfl

/-- Settles O46: each of the three flags is read off `bitFlags`, whose frame is the rest. -/
theorem bitTestsTheOperand : Obligations.BitTestsTheOperand := by
  have htakes : TakesForms .bit 6 [.zeroPage, .absolute] [] :=
    takesForms_of_outcomes (o := .bit) (fun _ => rfl) rfl (by decide)
  refine ⟨htakes, fun op s hrun => ?_⟩
  obtain ⟨m, bus, hm, hc⟩ := withValue_completes (r := fun m => s.setP (bitFlags s.p s.a m)) htakes (by decide) rfl hrun
  exact ⟨m, _, hm, hc, getFlag_bitFlags s.p s.a m .z, getFlag_bitFlags s.p s.a m .n, getFlag_bitFlags s.p s.a m .v,
    (s.bitFlags_frame m).completed bus, rfl⟩

/-- Settles O47: NOP completes with the state it began in. -/
theorem nopChangesNothing : Obligations.NopChangesNothing := by
  have htakes : TakesForms .nop 33 [.implicit] [] :=
    takesForms_of_outcomes (o := .nop) (fun _ => rfl) rfl (by decide)
  refine ⟨htakes, fun op s hrun => ?_⟩
  obtain ⟨bus, hc⟩ := implicitOnly_completes (u := s) htakes rfl hrun
  exact ⟨_, hc, ⟨rfl, rfl, rfl, rfl, rfl⟩, rfl, rfl, (Frame.refl s).completed bus⟩

end Sys2Proof.Machine
end

section
/-! PROOFS. The decoder and the encoder of the interface word undo each other, and the words that decode
(30_encoding.md R60 to R63; 92_eei_decisions.md D1, D18). -/

namespace Sys2Proof

/-! ### Tags, forms and payloads -/

/-- A tag that names an operation is that operation's tag (R62). -/
theorem Operation.ofTag_eq_some_iff (t : BitVec 6) (o : Operation) : Operation.ofTag t = some o ↔ o.tag = t := by
  have hback : ∀ t : BitVec 6, ∀ o ∈ Operation.ofTag t, o.tag = t := by decide
  exact ⟨hback t o, fun h => h ▸ Operation.ofTag_tag o⟩

/-- A code that names a form is that form's code (R61). -/
theorem Form.ofCode_eq_some_iff (c : BitVec 4) (f : Form) : Form.ofCode c = some f ↔ f.code = c := by
  have hback : ∀ c : BitVec 4, ∀ f ∈ Form.ofCode c, f.code = c := by decide
  exact ⟨hback c f, fun h => h ▸ Form.ofCode_code f⟩

/-- The tags that name an operation (R63 check 1). -/
theorem Operation.exists_ofTag_iff (t : BitVec 6) : (∃ o, Operation.ofTag t = some o) ↔ t.toNat ≤ 55 := by
  rw [← Option.isSome_iff_exists, Operation.ofTag, isSome_getElem?]
  exact Nat.lt_succ_iff

/-- The codes that name a form (R63 check 2). -/
theorem Form.exists_ofCode_iff (c : BitVec 4) : (∃ f, Form.ofCode c = some f) ↔ c.toNat ≤ 12 := by
  rw [← Option.isSome_iff_exists, Form.ofCode, isSome_getElem?]
  exact Nat.lt_succ_iff

/-- Check 4 of R63 as a number. -/
theorem unusedPayloadZero_iff (f : Form) (p : BitVec 16) :
    unusedPayloadZero f p = true ↔ p.toNat / 2 ^ f.payloadBits = 0 := by
  rw [unusedPayloadZero, beq_iff_eq, ← BitVec.toNat_inj, BitVec.toNat_ushiftRight, Nat.shiftRight_eq_div_pow]
  rfl

/-- An operand's payload leaves the bits its form does not use at 0 (R61). -/
theorem Operand.unusedPayloadZero_payload (op : Operand) : unusedPayloadZero op.form op.payload = true := by
  rw [unusedPayloadZero_iff]
  cases op with
  | implicit | accumulator => rfl
  | absolute a | absoluteX a | absoluteY a | indirect a => exact Nat.div_eq_of_lt a.isLt
  | immediate o | zeroPage o | zeroPageX o | zeroPageY o | relative o | indexedIndirect o | indirectIndexed o =>
    rw [Operand.payload, BitVec.toNat_setWidth_of_le (by decide)]
    exact Nat.div_eq_of_lt o.isLt

/-- The operand is read back from its payload (R61). -/
@[simp] theorem Operand.ofPayload_payload (op : Operand) : Operand.ofPayload op.form op.payload = op := by
  cases op <;> simp [Operand.ofPayload, Operand.form, Operand.payload]

@[simp] theorem Operand.form_ofPayload (f : Form) (p : BitVec 16) : (Operand.ofPayload f p).form = f := by
  cases f <;> rfl

/-- A payload with its high byte at 0 is its low byte, zero-extended. -/
theorem setWidth_payloadByte {p : BitVec 16} (h : p.toNat / 2 ^ 8 = 0) : (payloadByte p).setWidth 16 = p := by
  apply BitVec.eq_of_toNat_eq
  rw [BitVec.toNat_setWidth_of_le (by decide), payloadByte, BitVec.extractLsb'_toNat, Nat.shiftRight_zero]
  omega

/-- A payload whose unused bits are 0 is that of the operand read from it (R61). -/
theorem Operand.payload_ofPayload {f : Form} {p : BitVec 16} (h : unusedPayloadZero f p = true) :
    (Operand.ofPayload f p).payload = p := by
  rw [unusedPayloadZero_iff] at h
  cases f with
  | implicit | accumulator => exact BitVec.eq_of_toNat_eq ((Nat.div_one p.toNat).symm.trans h).symm
  | absolute | absoluteX | absoluteY | indirect => rfl
  | immediate | zeroPage | zeroPageX | zeroPageY | relative | indexedIndirect | indirectIndexed =>
    exact setWidth_payloadByte h

/-! ### The word -/

/-- A word with bits 21:16 at 0 is put together from its other fields (R60). -/
theorem packWord_fields {w : IWord} {o : Operation} {f : Form} (ho : o.tag = opField w) (hf : f.code = modeField w)
    (hr : reservedField w = 0) : packWord o f (payloadField w) = w := by
  apply BitVec.eq_of_toNat_eq
  have := w.isLt
  have hzero : w.toNat / 2 ^ 16 % 2 ^ 6 = 0 := by
    rw [← Nat.shiftRight_eq_div_pow, ← BitVec.extractLsb'_toNat]
    exact congrArg BitVec.toNat hr
  rw [packWord_toNat, ho, hf]
  simp only [opField, modeField, payloadField, BitVec.extractLsb'_toNat, Nat.shiftRight_eq_div_pow]
  omega

/-- All `decode` can accept: the four checks of R63 pass, and the instruction is read from the fields. -/
theorem decode_eq_ok_iff (w : IWord) (i : Instr) :
    decode w = .ok i ↔ ∃ o f, o.tag = opField w ∧ f.code = modeField w ∧ reservedField w = 0 ∧
      unusedPayloadZero f (payloadField w) = true ∧ i = Instr.of o (Operand.ofPayload f (payloadField w)) := by
  simp only [← Operation.ofTag_eq_some_iff, ← Form.ofCode_eq_some_iff]
  constructor
  · intro h
    unfold decode at h
    split at h
    · cases h
    · next o ho =>
      split at h
      · cases h
      · next f hf =>
        split at h
        · cases h
        · next hr =>
          split at h
          · next hu => cases h; exact ⟨o, f, ho, hf, not_not.1 hr, hu, rfl⟩
          · cases h
  · rintro ⟨o, f, ho, hf, hr, hu, rfl⟩
    simp only [decode, ho, hf, hr, hu, ne_eq, not_true, if_false, if_true]

/-- Settles O7: the word of an instruction passes the four checks, and its fields are the instruction's. -/
theorem decodeOfEncodeIsTheInstruction : Obligations.DecodeOfEncodeIsTheInstruction := by
  intro i
  refine (decode_eq_ok_iff _ _).2 ⟨i.operation, i.operand.form, ?_, ?_, ?_, ?_, ?_⟩ <;>
    simp [encode, Operand.unusedPayloadZero_payload]

/-- Settles O8: a word that decodes has the fields of its instruction and no other bit set. -/
theorem encodeOfDecodeIsTheWord : Obligations.EncodeOfDecodeIsTheWord := by
  intro w i h
  obtain ⟨o, f, ho, hf, hr, hu, rfl⟩ := (decode_eq_ok_iff w i).1 h
  rw [encode, Instr.operation_of, Instr.operand_of, Operand.form_ofPayload, Operand.payload_ofPayload hu,
    packWord_fields ho hf hr]

/-- Checks 1 to 4 of R63 on the fields: the word decodes when its tag and its code name an operation and a form. -/
theorem exists_decode_iff (w : IWord) :
    (∃ i, decode w = .ok i) ↔ (opField w).toNat ≤ 55 ∧ (reservedField w).toNat = 0 ∧
      ∃ f : Form, f.code = modeField w ∧ (payloadField w).toNat / 2 ^ f.payloadBits = 0 := by
  have hzero : reservedField w = 0 ↔ (reservedField w).toNat = 0 := BitVec.toNat_inj.symm
  simp only [← Operation.exists_ofTag_iff, ← hzero, ← unusedPayloadZero_iff, decode_eq_ok_iff,
    Operation.ofTag_eq_some_iff]
  constructor
  · rintro ⟨i, o, f, ho, hf, hr, hu, -⟩
    exact ⟨⟨o, ho⟩, hr, f, hf, hu⟩
  · rintro ⟨⟨o, ho⟩, hr, f, hf, hu⟩
    exact ⟨_, o, f, ho, hf, hr, hu, rfl⟩

/-- The number of payload bits by the number of the form (R61): none for the forms 0 and 1, sixteen for the forms of an
address, eight for the rest. -/
theorem payloadBits_eq (f : Form) :
    f.payloadBits = if f.code.toNat ≤ 1 then 0 else if f.code.toNat ≤ 6 ∨ 11 ≤ f.code.toNat then 8 else 16 := by
  cases f <;> rfl

/-- The payload bits that check 4 of R63 wants at 0, by the number of the form. -/
theorem exists_form_payload_iff (c : BitVec 4) (p : Nat) (hp : p < 2 ^ 16) :
    (∃ f : Form, f.code = c ∧ p / 2 ^ f.payloadBits = 0) ↔
      c.toNat ≤ 12 ∧ (c.toNat ≤ 1 → p = 0) ∧ ((2 ≤ c.toNat ∧ c.toNat ≤ 6 ∨ 11 ≤ c.toNat) → p / 2 ^ 8 = 0) := by
  have hbits (f : Form) : p / 2 ^ f.payloadBits = 0 ↔
      (f.code.toNat ≤ 1 → p = 0) ∧ ((2 ≤ f.code.toNat ∧ f.code.toNat ≤ 6 ∨ 11 ≤ f.code.toNat) → p / 2 ^ 8 = 0) := by
    rw [payloadBits_eq]
    split
    · omega
    · split <;> omega
  rw [← Form.exists_ofCode_iff]
  simp only [hbits, Form.ofCode_eq_some_iff]
  constructor
  · rintro ⟨f, rfl, h⟩
    exact ⟨⟨f, rfl⟩, h⟩
  · rintro ⟨⟨f, rfl⟩, h⟩
    exact ⟨f, rfl, h⟩

/-- Settles O9: each field is a quotient of the word's number, and a form's unused payload bits are those its code says. -/
theorem decodeAcceptsExactlyTheFourChecks : Obligations.DecodeAcceptsExactlyTheFourChecks := by
  intro w
  have := w.isLt
  rw [exists_decode_iff, exists_form_payload_iff _ _ (payloadField w).isLt]
  simp only [opField, modeField, reservedField, payloadField, BitVec.extractLsb'_toNat, Nat.shiftRight_eq_div_pow]
  omega

end Sys2Proof
end

section
/-! PROOFS. The byte stream of the reference dispatcher carries the interface word, and the table behind it
(30_encoding.md R62, R64, R68 to R70; 70_reset_and_hazards.md R247). -/

namespace Sys2Proof

/-! ### The opcode bytes -/

/-- The map of R68 goes back on every row of R62: no two rows have one opcode byte. -/
theorem byteRow_of_mem_rows {o : Operation} {f : Form} {b : Byte} (h : (f, b) ∈ o.rows) : byteRow b = some (o, f) := by
  have hall : ∀ o ∈ Operation.all, ∀ r ∈ o.rows, byteRow r.2 = some (o, r.1) := by decide
  exact hall o o.mem_all (f, b) h

/-- The opcode bytes of the table, row by row (R62). -/
def rowBytes : List Byte := Operation.all.flatMap fun o => o.rows.map (·.2)

/-- A byte has a row exactly when it is a row's (R68). -/
theorem mem_rowBytes_iff (b : Byte) : b ∈ rowBytes ↔ (byteRow b).isSome = true := by
  simp [rowBytes, byteRow, List.findSome?_isSome_iff]

/-- The opcode bytes are different: the map of R68 tells their rows apart. -/
theorem rowBytes_nodup : rowBytes.Nodup := by
  have hrows : ∀ o ∈ Operation.all, (o.rows.map (·.2)).Nodup := by decide
  have hall : Operation.all.Nodup := by decide
  refine List.nodup_flatMap.2 ⟨hrows, hall.imp fun {o o'} hne b hb hb' => hne ?_⟩
  obtain ⟨⟨f, _⟩, hr, rfl⟩ := List.mem_map.1 hb
  obtain ⟨⟨f', _⟩, hr', rfl⟩ := List.mem_map.1 hb'
  have hsame := (byteRow_of_mem_rows hr).symm.trans (byteRow_of_mem_rows hr')
  cases hsame
  rfl

/-- The bytes with a row are those of the table, so 151 of the 256. -/
theorem length_bytes_with_row : ((List.range 256).filter fun b => (byteRow (BitVec.ofNat 8 b)).isSome).length = 151 := by
  have hperm : ((List.range 256).filter fun b => (byteRow (BitVec.ofNat 8 b)).isSome).Perm (rowBytes.map BitVec.toNat) := by
    refine (List.perm_ext_iff_of_nodup (List.nodup_range.filter _)
      (rowBytes_nodup.map BitVec.toNat_injective)).2 fun n => ?_
    simp only [List.mem_filter, List.mem_range, ← mem_rowBytes_iff, List.mem_map]
    constructor
    · rintro ⟨hn, hb⟩
      exact ⟨_, hb, BitVec.toNat_ofNat n 8 ▸ Nat.mod_eq_of_lt hn⟩
    · rintro ⟨b, hb, rfl⟩
      exact ⟨b.isLt, by rwa [BitVec.ofNat_toNat, BitVec.setWidth_eq]⟩
  rw [hperm.length_eq]
  rfl

/-- The arguments without a value are those left over by the ones with a value. -/
theorem length_filter_isNone {α β : Type} {l : List α} {g : α → Option β} {m n : Nat}
    (hsome : (l.filter fun a => (g a).isSome).length = m) (hl : l.length = m + n) :
    (l.filter fun a => (g a).isNone).length = n := by
  rw [List.length_eq_length_filter_add fun a => (g a).isSome, hsome] at hl
  simpa using hl

/-- Settles O11: the admitted pairs are counted over the table, and the bytes with no row are the 256 less the table's. -/
theorem theTableHasItsRows : Obligations.TheTableHasItsRows := by
  constructor
  · decide
  · exact length_filter_isNone length_bytes_with_row List.length_range

/-- Settles O10: each word is decoded. -/
theorem sampleWordsDecode : Obligations.SampleWordsDecode := by
  unfold Obligations.SampleWordsDecode
  decide

/-! ### The bytes of an instruction -/

/-- The opcode byte of a pair stands in its row (R62). -/
theorem mem_rows_of_opcodeByte {o : Operation} {f : Form} {b : Byte} (h : opcodeByte o f = some b) : (f, b) ∈ o.rows := by
  obtain ⟨⟨g, c⟩, hr, rfl⟩ := Option.map_eq_some_iff.1 h
  have hg : (g == f) = true := List.find?_some (p := fun r : Form × Byte => r.1 == f) hr
  exact beq_iff_eq.1 hg ▸ List.mem_of_find?_eq_some hr

/-- An admitted pair has an opcode byte (R62, R68). -/
theorem exists_opcodeByte {i : Instr} (hw : i.wellFormed = true) : ∃ b, opcodeByte i.operation i.operand.form = some b := by
  obtain ⟨r, hr, hf⟩ := List.any_eq_true.1 hw
  rw [opcodeByte, ← Option.isSome_iff_exists, Option.isSome_map, List.find?_isSome]
  exact ⟨r, hr, hf⟩

/-- The payload read from bytes that begin with an operand's own is the operand's (R69). -/
theorem streamPayload_of_prefix {op : Operand} {b b0 b1 b2 : Byte}
    (h : (b :: [payloadByte op.payload, op.payload.extractLsb' 8 8]).take op.form.length <+: [b0, b1, b2]) :
    streamPayload op.form b1 b2 = op.payload := by
  cases op with
  | implicit | accumulator => rfl
  | absolute a | absoluteX a | absoluteY a | indirect a =>
    simp [Operand.form, Form.length, Form.payloadBits, Operand.payload] at h
    obtain ⟨-, rfl, rfl⟩ := h
    rw [Operand.payload, ← Machine.append_bytes a]
    simp [streamPayload, Operand.form, Form.length, Form.payloadBits, payloadByte]
  | immediate o | zeroPage o | zeroPageX o | zeroPageY o | relative o | indexedIndirect o | indirectIndexed o =>
    simp [Operand.form, Form.length, Form.payloadBits, Operand.payload] at h
    obtain ⟨-, rfl⟩ := h
    simp [streamPayload, Operand.form, Form.length, Form.payloadBits, Operand.payload]

/-- The dispatcher reads an instruction's bytes as its word and length (R247), whatever stands after them. -/
theorem streamWord_of_encodeBytes {i : Instr} {bs : List Byte} {b0 b1 b2 : Byte} (hbs : encodeBytes i = some bs)
    (hpre : bs <+: [b0, b1, b2]) : streamWord b0 b1 b2 = some (encode i, i.operand.form.length) := by
  obtain ⟨b, hb, rfl⟩ := Option.map_eq_some_iff.1 hbs
  have hpay := streamPayload_of_prefix hpre
  obtain rfl : b = b0 := by
    rw [Form.length, Nat.add_comm, List.take_succ_cons] at hpre
    exact (List.cons_prefix_cons.1 hpre).1
  rw [streamWord, byteRow_of_mem_rows (mem_rows_of_opcodeByte hb)]
  simp only [Option.map_some, hpay, encode]

/-- Settles O12: the opcode byte names the row, and the operand's bytes are its payload. -/
theorem byteStreamCarriesTheWord : Obligations.ByteStreamCarriesTheWord := by
  intro i hw
  obtain ⟨b, hb⟩ := exists_opcodeByte hw
  have hbs : encodeBytes i = some _ := congrArg (Option.map _) hb
  refine ⟨_, hbs, ?_, fun b0 b1 b2 => streamWord_of_encodeBytes hbs⟩
  have hlen : i.operand.form.length ≤ 3 := by cases i.operand.form <;> decide
  rw [List.length_take]
  exact min_eq_left hlen

end Sys2Proof
end

section
/-! PROOFS. What every admitted instruction leaves, said once for all 56 operations: the registers, flags and `PC` it may
write, the bytes it writes, bit 5 of `P` and the fault mark (10_state.md R21, R24 to R27; 20_memory.md R43). -/

namespace Sys2Proof.Machine
open Sys2Proof.Claims

/-! ### The tables of writers -/

/-- The writers of a register (R21); the shifts and rotates write `A` in the Accumulator form alone. -/
def MayWriteReg (o : Operation) (op : Operand) : RegName → Prop
  | .a => o ∈ [Operation.adc, .sbc, .and, .ora, .eor, .lda, .txa, .tya, .pla] ∨
      o ∈ [Operation.asl, .lsr, .rol, .ror] ∧ op = .accumulator
  | .x => o ∈ [Operation.ldx, .tax, .tsx, .inx, .dex]
  | .y => o ∈ [Operation.ldy, .tay, .iny, .dey]
  | .sp => o ∈ [Operation.pha, .php, .pla, .plp, .jsr, .rts, .brk, .rti, .txs]

/-- The writers of a flag but PLP and RTI, which write them all (R25). -/
def flagWriters : Flag → List Operation
  | .c => [.adc, .sbc, .asl, .lsr, .rol, .ror, .cmp, .cpx, .cpy, .clc, .sec]
  | .v => [.adc, .sbc, .bit, .clv]
  | .b => [.brk]
  | .d => [.cld, .sed]
  | .i => [.cli, .sei]
  | .n | .z => [.adc, .sbc, .and, .ora, .eor, .asl, .lsr, .rol, .ror, .inc, .dec, .inx, .iny, .dex, .dey, .cmp, .cpx,
      .cpy, .lda, .ldx, .ldy, .tax, .txa, .tay, .tya, .pla, .bit]

/-- The writers of `PC` (R24). -/
def pcWriters : List Operation :=
  [.bcc, .bcs, .beq, .bne, .bmi, .bpl, .bvc, .bvs, .jmp, .jsr, .rts, .brk, .rti]

/-- The addresses an instruction writes, in the order of R43. -/
def writtenSlots (o : Operation) (op : Operand) (s : State) : List Addr :=
  match accessClass o with
  | .readModifyWrite | .store => (getPointer op s).toList
  | .pushes n => pushSlots s.sp n
  | .trap => pushSlots s.sp 3
  | .operandRead | .pops _ | .jump | .silent => []

/-- What the rule of an instruction may do to the state `s` it runs on: `u` differs in what the tables of writers list,
keeps bit 5 of `P` and the mark, and its memory is that of `s` with its own bytes written at the instruction's addresses. -/
structure Leaves (o : Operation) (op : Operand) (s u : State) : Prop where
  regs : ∀ r, u.reg r ≠ s.reg r → MayWriteReg o op r
  flags : ∀ f, u.flag f ≠ s.flag f → o ∈ [Operation.plp, .rti] ∨ o ∈ flagWriters f
  pc : u.pc ≠ s.pc → o ∈ pcWriters
  bit5 : s.p[5] = true → u.p[5] = true
  mark : u.faulted = s.faulted
  mem : (writesOf u (writtenSlots o op s)).foldl replayAccess s.mem = u.mem

section
variable {o : Operation} {op : Operand} {s u : State} {rs : List RegName} {fs : List Flag} {as : List Addr}

/-- A rule with a frame of listed registers and flags. -/
theorem Leaves.of_frame (h : Frame rs fs as s u) (hpc : o ∈ pcWriters ∨ u.pc = s.pc)
    (hmem : (writesOf u (writtenSlots o op s)).foldl replayAccess s.mem = u.mem)
    (hregs : ∀ r ∈ rs, MayWriteReg o op r := by simp [MayWriteReg])
    (hflags : ∀ f ∈ fs, o ∈ flagWriters f := by decide) : Leaves o op s u where
  regs r hr := by
    by_contra hnot
    exact hr (h.regs r fun hmem => hnot (hregs r hmem))
  flags f hf := by
    by_contra hnot
    exact hf (h.flags f fun hmem => hnot (.inr (hflags f hmem)))
  pc hne := hpc.resolve_right hne
  bit5 h5 := h.bit5.trans h5
  mark := h.mark
  mem := hmem

/-- PLP and RTI write a whole byte into `P`, whose bit 5 stays 1 (R26, R28). -/
theorem Leaves.setPsw (h : Leaves o op s u) (ho : o ∈ [Operation.plp, .rti]) (v : Byte) : Leaves o op s (u.setPsw v) where
  regs r hr := h.regs r fun he => hr (Eq.trans (by cases r <;> rfl) he)
  flags _ _ := .inl ho
  pc hne := h.pc hne
  bit5 _ := restoreByte_bit5 v
  mark := h.mark
  mem := h.mem

/-- The output ports are outside the frame. -/
theorem Frame.of_completed {bus : List Access} (h : Frame rs fs as s (u.completed bus)) : Frame rs fs as s u where
  regs r hr := (u.completed_reg bus r).symm.trans (h.regs r hr)
  flags f hf := h.flags f hf
  bit5 := h.bit5
  bytes a ha := h.bytes a ha
  mark := h.mark
  port := h.port

/-- The flags of an ALU output over a write back, before the call is reported (R95). -/
theorem Frame.setAluFlags {a : AluOut} (h : Frame rs [] as s u) (hc : a.cout = none ∨ .c ∈ fs)
    (hv : a.vout = none ∨ .v ∈ fs) (hn : .n ∈ fs := by decide) (hz : .z ∈ fs := by decide) :
    Frame rs fs as s (u.setP (aluFlags u.p a)) :=
  (h.afterAlu hn hz hc hv []).of_completed

/-- N and Z from a byte over a register write (R90). -/
theorem Frame.withNZ (h : Frame rs [] as s u) (v : Byte) : Frame rs [.n, .z] as s (withNZ u v) :=
  h.setAluFlags (a := { r := v, cout := none, vout := none }) (.inl rfl) (.inl rfl)

/-! ### The bytes written -/

theorem pushSlots_one (sp : Byte) : pushSlots sp 1 = [stackSlot sp] := by simp [pushSlots]

theorem pushSlots_two (sp : Byte) : pushSlots sp 2 = [stackSlot sp, stackSlot (sp - 1)] := by
  simp [pushSlots, List.range_succ]

theorem pushSlots_three (sp : Byte) : pushSlots sp 3 = [stackSlot sp, stackSlot (sp - 1), stackSlot (sp - 2)] := by
  simp [pushSlots, List.range_succ]

/-- A write of one byte is replayed by the byte that then stands there (R50). -/
theorem replay_write {a : Addr} {v : Byte} (hu : u.mem = s.mem.write a.toNat v) :
    (writesOf u [a]).foldl replayAccess s.mem = u.mem := by
  simp [writesOf, replayAccess, State.readByte, hu, Memory.read_write]

/-- A push is replayed by the byte at its slot (R80). -/
theorem replay_push (s : State) (v : Byte) :
    (writesOf (s.push v) (pushSlots s.sp 1)).foldl replayAccess s.mem = (s.push v).mem := by
  rw [pushSlots_one]
  exact replay_write rfl

/-- `push_pc` is replayed high byte first (R82). -/
theorem replay_pushPc (s : State) (t : Addr) :
    (writesOf (s.pushPc.setPc t) (pushSlots s.sp 2)).foldl replayAccess s.mem = s.pushPc.mem := by
  simp only [pushSlots_two, writesOf, List.map_cons, List.map_nil, State.setPc_readByte, s.pushPc_high, s.pushPc_low]
  rfl

/-- The trap's three pushes are replayed in their order (R173). -/
theorem replay_takeBreak (s : State) :
    (writesOf s.takeBreak (pushSlots s.sp 3)).foldl replayAccess s.mem = s.takeBreak.mem := by
  have htwo : s.sp - 2 = s.sp - 1 - 1 := (sub_sub s.sp 1 1).symm
  obtain ⟨hne, hne', hne''⟩ := slots_ne s.sp
  simp only [pushSlots_three, htwo, writesOf, List.map_cons, List.map_nil, State.takeBreak_readByte, stackSlot_inj, hne,
    hne', hne'', if_pos, if_false]
  rfl

end

/-! ### The frames of the pops and the trap -/

/-- `pop_pc` raises `SP` and loads `PC`, and nothing else (R83). -/
theorem State.popPc_frame (s : State) : Frame [.sp] [] [] s s.popPc :=
  ((s.setReg_frame .sp (s.sp + 1 + 1)).setPc_completed s.popPc.pc []).of_completed

/-- `pop` raises `SP`, and nothing else (R81). -/
theorem State.popped_frame (s : State) : Frame [.sp] [] [] s s.popped := s.setReg_frame .sp (s.sp + 1)

/-- The trap writes `SP`, B and its three slots, and nothing else but `PC` (R173). -/
theorem State.takeBreak_frame (s : State) :
    Frame [.sp] [.b] [stackSlot s.sp, stackSlot (s.sp - 1), stackSlot (s.sp - 1 - 1)] s s.takeBreak where
  regs r hr := by cases r <;> simp_all [State.reg]
  flags f hf := by
    have hf : f ≠ .b := by simpa using hf
    rw [State.flag, State.takeBreak_p, getFlag_setFlag, if_neg hf]
    rfl
  bit5 := by rw [State.takeBreak_p, setFlag_bit5]
  bytes a ha := by
    obtain ⟨hhigh, hlow, hp⟩ : a ≠ stackSlot s.sp ∧ a ≠ stackSlot (s.sp - 1) ∧ a ≠ stackSlot (s.sp - 1 - 1) := by
      simpa using ha
    rw [State.takeBreak_readByte, if_neg hp, if_neg hlow, if_neg hhigh]
  mark := s.takeBreak_faulted
  port := s.takeBreak_instr

/-! ### An admitted instruction's effect, by the shape of its rule -/

section
variable {o : Operation} {op : Operand} {s : State}

/-- An admitted rule over the operand's value finds one (R112, R116). -/
theorem value_effect {r : Byte → State} (hw : admits o op.form = true) (himp : admits o .implicit = false)
    (hexec : exec (.of o op) s = perform (.of o op) s (withValue op s r)) (hl : ∀ m, Leaves o op s (r m)) :
    ∃ u, exec (.of o op) s = perform (.of o op) s (.ok u) ∧ Leaves o op s u := by
  have hform : op.form ≠ .implicit := fun h => by simp [h, himp] at hw
  obtain ⟨m, hm⟩ := getU8_isSome hform s
  exact ⟨r m, by rw [hexec, withValue, hm], hl m⟩

/-- An admitted rule that takes only Implicit has its effect. -/
theorem implicit_effect {t : State} (hw : admits o op.form = true) (himp : ∀ f ∈ Form.all, admits o f = true → f = .implicit)
    (hexec : exec (.of o op) s = perform (.of o op) s (implicitOnly op t)) (hl : Leaves o op s t) :
    ∃ u, exec (.of o op) s = perform (.of o op) s (.ok u) ∧ Leaves o op s u := by
  obtain rfl := (form_eq_implicit_iff op).1 (himp op.form op.form.mem_all hw)
  exact ⟨t, hexec, hl⟩

/-- An admitted branch moves `PC` or leaves it (R161). -/
theorem branch_effect {f : Flag} {want : Bool} (hw : admits o op.form = true)
    (hrel : ∀ f ∈ Form.all, admits o f = true → f = .relative) (hpc : o ∈ pcWriters) (hsilent : accessClass o = .silent)
    (hexec : exec (.of o op) s = perform (.of o op) s (branch f want op s)) :
    ∃ u, exec (.of o op) s = perform (.of o op) s (.ok u) ∧ Leaves o op s u := by
  have hform := hrel op.form op.form.mem_all hw
  cases op with
  | relative d =>
    refine ⟨_, hexec, ?_⟩
    have hslots : writtenSlots o (.relative d) s = [] := by simp [writtenSlots, hsilent]
    split
    · exact .of_frame ((Frame.refl s).setPc_completed _ []).of_completed (.inl hpc) (by rw [hslots]; rfl) (by simp) (by simp)
    · exact .of_frame (Frame.refl s) (.inl hpc) (by rw [hslots]; rfl) (by simp) (by simp)
  | _ => cases hform

/-- An admitted store writes the byte at its effective address (R113, R191 to R193). -/
theorem store_effect {v : Byte} (hw : admits o op.form = true)
    (hmem : ∀ f ∈ Form.all, admits o f = true → f ∉ [Form.implicit, .accumulator, .immediate, .relative])
    (hclass : accessClass o = .store)
    (hexec : exec (.of o op) s = perform (.of o op) s (setU8 op v s)) :
    ∃ u, exec (.of o op) s = perform (.of o op) s (.ok u) ∧ Leaves o op s u := by
  obtain ⟨a, ha, hset⟩ := setU8_memory (hmem op.form op.form.mem_all hw) v s
  have hslots : writtenSlots o op s = [a] := by simp [writtenSlots, hclass, ha]
  exact ⟨_, by rw [hexec, hset], .of_frame (s.writeByte_frame a v) (.inr rfl) (by rw [hslots]; exact replay_write rfl)
    (by simp) (by simp)⟩

/-- An admitted read-modify-write rule writes its result at the location of its operand, and the flags `fs` of its ALU
operation (R117). -/
theorem modify_effect {g : AluOp} {fs : List Flag} (hw : admits o op.form = true)
    (hforms : ∀ f ∈ Form.all, admits o f = true → f ∈ Form.accumulator :: modifyForms)
    (hclass : accessClass o = .readModifyWrite)
    (hshift : admits o .accumulator = true → o ∈ [Operation.asl, .lsr, .rol, .ror])
    (hflags : ∀ f ∈ fs, o ∈ flagWriters f) (hn : .n ∈ fs) (hz : .z ∈ fs)
    (hc : (∀ v c, (alu g v 0 c).cout = none) ∨ .c ∈ fs) (hv : ∀ v c, (alu g v 0 c).vout = none)
    (hexec : exec (.of o op) s = perform (.of o op) s (modify op s g)) :
    ∃ u, exec (.of o op) s = perform (.of o op) s (.ok u) ∧ Leaves o op s u := by
  obtain rfl | hmem := accumulator_or_memory (hforms op.form op.form.mem_all hw)
  · have hslots : writtenSlots o .accumulator s = [] := by simp [writtenSlots, hclass, getPointer]
    have hregs : ∀ r ∈ [RegName.a], MayWriteReg o .accumulator r := by
      rintro r hr
      obtain rfl := List.mem_singleton.1 hr
      exact .inr ⟨hshift hw, rfl⟩
    exact ⟨_, hexec, .of_frame ((s.setReg_frame .a _).setAluFlags (hc.imp_left fun h => h _ _) (.inl (hv _ _)) hn hz)
      (.inr rfl) (by rw [hslots]; rfl) hregs hflags⟩
  · obtain ⟨v, hval⟩ := getU8_isSome (op := op) (fun h => hmem (h ▸ List.mem_cons_self)) s
    obtain ⟨a, ha, hset⟩ := setU8_memory hmem (alu g v 0 (s.flag .c)).r s
    have hslots : writtenSlots o op s = [a] := by simp [writtenSlots, hclass, ha]
    refine ⟨_, by rw [hexec]; simp only [modify, hval, hset]; rfl, ?_⟩
    exact .of_frame ((s.writeByte_frame a _).setAluFlags (hc.imp_left fun h => h _ _) (.inl (hv _ _)) hn hz)
      (.inr rfl) (by rw [hslots]; exact replay_write rfl) (by simp) hflags

/-- An admitted JMP goes to its operand's address (R170). -/
theorem jmp_effect (hw : admits .jmp op.form = true) :
    ∃ u, exec (.of .jmp op) s = perform (.of .jmp op) s (.ok u) ∧ Leaves .jmp op s u := by
  have hleaves (t : Addr) : Leaves .jmp op s (s.setPc t) :=
    .of_frame ((Frame.refl s).setPc_completed t []).of_completed (.inl (by decide)) rfl
  cases op with
  | absolute | indirect => exact ⟨_, rfl, hleaves _⟩
  | _ => cases hw

/-- An admitted JSR pushes `PC` and goes to its operand's address (R171). -/
theorem jsr_effect (hw : admits .jsr op.form = true) :
    ∃ u, exec (.of .jsr op) s = perform (.of .jsr op) s (.ok u) ∧ Leaves .jsr op s u := by
  cases op with
  | absolute a =>
    exact ⟨_, rfl, .of_frame (s.pushPc_frame.setPc_completed a []).of_completed (.inl (by decide)) (replay_pushPc s a)⟩
  | _ => cases hw

end

/-- What each admitted instruction leaves, for all 56 operations. -/
theorem admitted_effect {o : Operation} {op : Operand} (hw : admits o op.form = true) (s : State) :
    ∃ u, exec (.of o op) s = perform (.of o op) s (.ok u) ∧ Leaves o op s u := by
  cases o with
  | adc | sbc =>
    exact value_effect hw (by decide) rfl fun m =>
      .of_frame (fs := [.c, .v, .n, .z]) ((s.setReg_frame .a _).setAluFlags (.inr (by decide)) (.inr (by decide)))
        (.inr rfl) rfl
  | and | ora | eor =>
    exact value_effect hw (by decide) rfl fun m =>
      .of_frame (fs := [.n, .z]) ((s.setReg_frame .a _).setAluFlags (.inl rfl) (.inl rfl)) (.inr rfl) rfl
  | cmp | cpx | cpy =>
    exact value_effect hw (by decide) rfl fun m =>
      .of_frame (fs := [.c, .n, .z]) ((Frame.refl s).setAluFlags (.inr (by decide)) (.inl rfl)) (.inr rfl) rfl
  | asl | lsr | rol | ror =>
    exact modify_effect (fs := [.c, .n, .z]) hw (by decide) rfl (by decide) (by decide) (by decide) (by decide)
      (.inr (by decide)) (fun _ _ => rfl) rfl
  | inc | dec =>
    exact modify_effect (fs := [.n, .z]) hw (by decide) rfl (by decide) (by decide) (by decide) (by decide)
      (.inl fun _ _ => rfl) (fun _ _ => rfl) rfl
  | inx | dex =>
    exact implicit_effect hw (by decide) rfl <|
      .of_frame (fs := [.n, .z]) ((s.setReg_frame .x _).setAluFlags (.inl rfl) (.inl rfl)) (.inr rfl) rfl
  | iny | dey =>
    exact implicit_effect hw (by decide) rfl <|
      .of_frame (fs := [.n, .z]) ((s.setReg_frame .y _).setAluFlags (.inl rfl) (.inl rfl)) (.inr rfl) rfl
  | lda => exact value_effect hw (by decide) rfl fun m => .of_frame ((s.setReg_frame .a m).withNZ m) (.inr rfl) rfl
  | ldx => exact value_effect hw (by decide) rfl fun m => .of_frame ((s.setReg_frame .x m).withNZ m) (.inr rfl) rfl
  | ldy => exact value_effect hw (by decide) rfl fun m => .of_frame ((s.setReg_frame .y m).withNZ m) (.inr rfl) rfl
  | bit => exact value_effect hw (by decide) rfl fun m => .of_frame (s.bitFlags_frame m) (.inr rfl) rfl
  | txa | tya => exact implicit_effect hw (by decide) rfl (.of_frame ((s.setReg_frame .a _).withNZ _) (.inr rfl) rfl)
  | tax => exact implicit_effect hw (by decide) rfl (.of_frame ((s.setReg_frame .x _).withNZ _) (.inr rfl) rfl)
  | tay => exact implicit_effect hw (by decide) rfl (.of_frame ((s.setReg_frame .y _).withNZ _) (.inr rfl) rfl)
  | txs => exact implicit_effect hw (by decide) rfl (.of_frame (s.setReg_frame .sp _) (.inr rfl) rfl)
  | tsx => exact implicit_effect hw (by decide) rfl (.of_frame (s.setReg_frame .x _) (.inr rfl) rfl)
  | sta | stx | sty => exact store_effect hw (by decide) rfl rfl
  | bcc | bcs | beq | bne | bmi | bpl | bvc | bvs => exact branch_effect hw (by decide) (by decide) rfl rfl
  | clc | sec | cli | sei | clv | cld | sed =>
    exact implicit_effect hw (by decide) rfl (.of_frame (s.setFlag_frame _ _) (.inr rfl) rfl)
  | jmp => exact jmp_effect hw
  | jsr => exact jsr_effect hw
  | rts => exact implicit_effect hw (by decide) rfl (.of_frame s.popPc_frame (.inl (by decide)) rfl)
  | brk =>
    exact implicit_effect hw (by decide) rfl (.of_frame s.takeBreak_frame (.inl (by decide)) (replay_takeBreak s))
  | rti =>
    exact implicit_effect hw (by decide) rfl
      (Leaves.setPsw (.of_frame (s.popped_frame.trans s.popped.popPc_frame) (.inl (by decide)) rfl) (by decide) _)
  | pha | php => exact implicit_effect hw (by decide) rfl (.of_frame (s.push_frame _) (.inr rfl) (replay_push s _))
  | pla =>
    exact implicit_effect hw (by decide) rfl
      (.of_frame (s.popped_frame.trans ((s.popped.setReg_frame .a _).withNZ _)) (.inr rfl) rfl)
  | plp =>
    exact implicit_effect hw (by decide) rfl (Leaves.setPsw (.of_frame s.popped_frame (.inr rfl) rfl) (by decide) _)
  | nop => exact implicit_effect hw (by decide) rfl (.of_frame (Frame.refl s) (.inr rfl) rfl)

end Sys2Proof.Machine
end

section
/-! PROOFS. The outcome of a call, the tables of writers, the invariant and the accesses, from what an admitted
instruction leaves (10_state.md R21, R24 to R26; 20_memory.md R43, R50; 60_exceptions.md R220 to R224). -/

namespace Sys2Proof.Machine
open Sys2Proof.Claims

/-! ### The outcome of a call -/

/-- The effect of an admitted instruction, by the instruction. -/
theorem wellFormed_effect {i : Instr} (hw : i.wellFormed = true) (s : State) :
    ∃ u, exec i s = perform i s (.ok u) ∧ Leaves i.operation i.operand s u := by
  have h := admitted_effect hw s
  rwa [Instr.of_operation_operand] at h

/-- All `exec` can answer with a next state: an admitted instruction's effect with its accesses, or an error outcome. -/
theorem exec_leaves {i : Instr} {s t : State} (h : exec i s = .next t) :
    s.faulted = false ∧
      ((∃ u, Leaves i.operation i.operand s u ∧ t = u.completed (busTrace i.operation i.operand s u)) ∨
        t = s.notWritable (encode i) ∨ t = s.violated (some (encode i))) := by
  obtain ⟨hf, ⟨hw, -⟩ | herror⟩ := exec_next h
  · obtain ⟨u, hexec, hleaves⟩ := wellFormed_effect hw s
    rw [hexec, perform_ok hf hw] at h
    cases h
    exact ⟨hf, .inl ⟨u, hleaves, rfl⟩⟩
  · exact ⟨hf, .inr herror⟩

/-- Settles O19: the effect of an admitted instruction is reported with status OK, and no effect touches the mark. -/
theorem admittedInstructionsComplete : Obligations.AdmittedInstructionsComplete := by
  rintro i s ⟨hf, hw⟩
  obtain ⟨u, hexec, hleaves⟩ := wellFormed_effect hw s
  exact ⟨_, completes_of_ok hf hw hexec, hleaves.mark.trans hf⟩

/-- A call on a pair of outcome NotWritable (R222). -/
theorem exec_of_notWritable {i : Instr} {s : State} (hf : s.faulted = false)
    (hp : pairStatus i.operation i.operand.form = .notWritable) : exec i s = .next (s.notWritable (encode i)) := by
  obtain ⟨e, he⟩ := exec_is_perform i s
  simp [he, perform, hf, hp]

/-- A call on a pair of outcome ContractViolation (R221). -/
theorem exec_of_violation {i : Instr} {s : State} (hf : s.faulted = false)
    (hp : pairStatus i.operation i.operand.form = .contractViolation) :
    exec i s = .next (s.violated (some (encode i))) := by
  obtain ⟨e, he⟩ := exec_is_perform i s
  simp [he, perform, hf, hp]

/-- Settles O20: the outcome of these pairs is NotWritable, whatever the rule would do. -/
theorem notWritablePairsWriteNothing : Obligations.NotWritablePairsWriteNothing := by
  intro i s hf hpair
  have hstores : ∀ o ∈ [Operation.sta, .stx, .sty], ∀ f ∈ [Form.implicit, .immediate, .relative],
      pairStatus o f = .notWritable := by decide
  have hmodifies : ∀ o ∈ [Operation.asl, .lsr, .rol, .ror, .inc, .dec], ∀ f ∈ [Form.immediate, .relative],
      pairStatus o f = .notWritable := by decide
  obtain ⟨ho, hform⟩ | ⟨ho, hform⟩ := hpair
  · exact exec_of_notWritable hf (hstores _ ho _ hform)
  · exact exec_of_notWritable hf (hmodifies _ ho _ hform)

/-- The pairs that steps 4 and 5 of R224 let through to step 6. -/
theorem pairStatus_violation {o : Operation} {f : Form} (hw : admits o f = false)
    (hstore : ¬ (o ∈ [Operation.sta, .stx, .sty] ∧ f ∈ [Form.implicit, .immediate, .relative]))
    (hmodify : ¬ (o ∈ [Operation.asl, .lsr, .rol, .ror, .inc, .dec] ∧ f ∈ [Form.immediate, .relative])) :
    pairStatus o f = .contractViolation := by
  have hstores : ∀ o ∈ Operation.all, o.isStore = true → o ∈ [Operation.sta, .stx, .sty] := by decide
  have hmodifies : ∀ o ∈ Operation.all, o.isReadModifyWrite = true → o ∈ [Operation.asl, .lsr, .rol, .ror, .inc, .dec] := by
    decide
  unfold pairStatus
  rw [if_neg (by simp [hw])]
  split
  · next h =>
    rw [Bool.and_eq_true] at h
    exact absurd ⟨hstores o o.mem_all h.1, by simpa [or_assoc] using h.2⟩ hstore
  · split
    · next h =>
      rw [Bool.and_eq_true] at h
      exact absurd ⟨hmodifies o o.mem_all h.1, by simpa using h.2⟩ hmodify
    · rfl

/-- Settles O21: the outcome of these pairs is ContractViolation, whatever the rule would do. -/
theorem otherUnadmittedPairsSetTheFaultMark : Obligations.OtherUnadmittedPairsSetTheFaultMark := by
  intro i s hf hw hstore hmodify
  exact exec_of_violation hf (pairStatus_violation hw hstore hmodify)

/-! ### The tables of writers -/

/-- What a call writes is in the tables of writers; an error outcome writes nothing. -/
theorem exec_writes {i : Instr} {s t : State} (h : exec i s = .next t) :
    (∀ r, t.reg r ≠ s.reg r → MayWriteReg i.operation i.operand r) ∧
      (∀ f, t.flag f ≠ s.flag f → i.operation ∈ [Operation.plp, .rti] ∨ i.operation ∈ flagWriters f) ∧
      (t.pc ≠ s.pc → i.operation ∈ pcWriters) := by
  obtain ⟨-, ⟨u, hleaves, rfl⟩ | herror⟩ := exec_leaves h
  · exact ⟨fun r hr => hleaves.regs r (u.completed_reg _ r ▸ hr), hleaves.flags, hleaves.pc⟩
  · have hreg (r : RegName) : t.reg r = s.reg r := by obtain rfl | rfl := herror <;> cases r <;> rfl
    have hflag (f : Flag) : t.flag f = s.flag f := by obtain rfl | rfl := herror <;> rfl
    have hpc : t.pc = s.pc := by obtain rfl | rfl := herror <;> rfl
    exact ⟨fun r hr => absurd (hreg r) hr, fun f hf => absurd (hflag f) hf, fun hne => absurd hpc hne⟩

/-- Settles O53: the table of R21, register by register. -/
theorem onlyTheListedInstructionsWriteARegister : Obligations.OnlyTheListedInstructionsWriteARegister := by
  intro i s t h
  obtain ⟨hregs, -, hpc⟩ := exec_writes h
  exact ⟨hregs .a, hregs .x, hregs .y, hregs .sp, hpc⟩

/-- Settles O54: the table of R25, flag by flag. -/
theorem onlyTheListedInstructionsWriteAFlag : Obligations.OnlyTheListedInstructionsWriteAFlag := by
  intro i s t h hnot
  obtain ⟨-, hflags, -⟩ := exec_writes h
  have hwriters (f : Flag) (hf : t.flag f ≠ s.flag f) : i.operation ∈ flagWriters f := (hflags f hf).resolve_left hnot
  exact ⟨hwriters .c, hwriters .v, fun hb => List.mem_singleton.1 (hwriters .b hb), hwriters .d, hwriters .i,
    fun hnz => hnz.elim (hwriters .n) (hwriters .z)⟩

/-! ### The accesses -/

/-- Reads leave the store they are replayed on. -/
theorem replay_readsOf (m : Memory) (s : State) (as : List Addr) : (readsOf s as).foldl replayAccess m = m := by
  induction as with
  | nil => rfl
  | cons a as ih => exact ih

/-- Reads of a state agree with its store. -/
theorem accessesAgree_readsOf (s : State) (as : List Addr) : accessesAgree s.mem (readsOf s as) := by
  induction as with
  | nil => trivial
  | cons a as ih => exact ⟨rfl, ih⟩

/-- Writes agree with every store. -/
theorem accessesAgree_writesOf (m : Memory) (s : State) (as : List Addr) : accessesAgree m (writesOf s as) := by
  induction as generalizing m with
  | nil => trivial
  | cons a as ih => exact ih _

/-- One list of accesses after another: the second is held to the store the first leaves. -/
theorem accessesAgree_append (m : Memory) (l k : List Access) :
    accessesAgree m (l ++ k) ↔ accessesAgree m l ∧ accessesAgree (l.foldl replayAccess m) k := by
  induction l generalizing m with
  | nil => simp [accessesAgree]
  | cons x l ih =>
    cases x with
    | read a v => exact (and_congr_right fun _ => ih m).trans and_assoc.symm
    | write a v => exact ih _

/-- The accesses of a call are reads of the state before it, then its writes, then reads of the state after it: the
vector's, which BRK alone makes (R43). -/
theorem busTrace_parts (o : Operation) (op : Operand) (s u : State) :
    ∃ before after, busTrace o op s u = readsOf s before ++ writesOf u (writtenSlots o op s) ++ readsOf u after := by
  unfold busTrace writtenSlots
  cases accessClass o with
  | operandRead | readModifyWrite =>
    exact ⟨pointerSlots op s ++ (getPointer op s).toList, [], by simp [readsOf, writesOf]⟩
  | store | jump => exact ⟨pointerSlots op s, [], by simp [readsOf, writesOf]⟩
  | pops n => exact ⟨popSlots s.sp n, [], by simp [readsOf, writesOf]⟩
  | trap => exact ⟨[], [Config.brkVector, Config.brkVector + 1], by simp [readsOf]⟩
  | pushes | silent => exact ⟨[], [], by simp [readsOf, writesOf]⟩

/-- Settles O56: the reads before the writes are of the memory before, the writes replayed give the memory after, and the
reads after them are of that. -/
theorem accessesAccountForMemory : Obligations.AccessesAccountForMemory := by
  intro i s t h
  obtain ⟨-, ⟨u, hleaves, rfl⟩ | rfl | rfl⟩ := exec_leaves h
  · obtain ⟨before, after, hbus⟩ := busTrace_parts i.operation i.operand s u
    simp only [State.completed_out, State.completed_mem, hbus, accessesAgree_append, List.foldl_append, replay_readsOf,
      hleaves.mem]
    exact ⟨⟨⟨accessesAgree_readsOf s before, accessesAgree_writesOf s.mem u _⟩, accessesAgree_readsOf u after⟩, trivial⟩
  · exact ⟨trivial, rfl⟩
  · exact ⟨trivial, rfl⟩

/-! ### The invariant -/

/-- Replaying accesses keeps the canonical form: every address on the port is in the address space. -/
theorem replay_wf {m : Memory} (hm : m.wf) (l : List Access) : (l.foldl replayAccess m).wf := by
  induction l generalizing m with
  | nil => exact hm
  | cons x l ih =>
    cases x with
    | read a v => exact ih hm
    | write a v => exact ih (Memory.write_wf hm a.isLt v)

/-- The violation keeps the invariant: it marks the core and shows status 2 (R221). -/
theorem State.violated_inv {s : State} (h : s.Inv) (w : Option IWord) : (s.violated w).Inv :=
  ⟨h.memory, h.bit5, fun _ => rfl⟩

/-- Every call on an instruction keeps the invariant. -/
theorem exec_keeps_inv {i : Instr} {s t : State} (hs : s.Inv) (h : exec i s = .next t) : t.Inv := by
  obtain ⟨hf, ⟨u, hleaves, rfl⟩ | rfl | rfl⟩ := exec_leaves h
  · have hunmarked : u.faulted = false := hleaves.mark.trans hf
    refine ⟨?_, hleaves.bit5 hs.bit5, fun hmark => ?_⟩
    · exact hleaves.mem ▸ replay_wf hs.memory _
    · exact absurd (hunmarked.symm.trans hmark) (by decide)
  · exact ⟨hs.memory, hs.bit5, fun hmark => absurd (hf.symm.trans hmark) (by decide)⟩
  · exact State.violated_inv hs _

/-- Every call on a word keeps the invariant. -/
theorem execute_keeps_inv {w : IWord} {s t : State} (hs : s.Inv) (h : execute w s = .next t) : t.Inv := by
  obtain ⟨-, ⟨i, -, hexec⟩ | ⟨-, rfl⟩⟩ := execute_next h
  · exact exec_keeps_inv hs hexec
  · exact State.violated_inv hs _

/-- Settles O4: a step is a call on the offered or the fetched word, or the violation of a byte with no row, and each keeps
the invariant; taking the word and moving `PC` touch nothing of it. -/
theorem stepKeepsTheInvariant : Obligations.StepKeepsTheInvariant := by
  intro s t hs h
  obtain ⟨w, -, hexec⟩ | ⟨-, w, n, -, hexec⟩ | ⟨-, -, -, rfl⟩ := step_next h
  · exact execute_keeps_inv (s := s.setInstr none) ⟨hs.memory, hs.bit5, hs.marked⟩ hexec
  · exact execute_keeps_inv (s := s.setPc (s.pc + BitVec.ofNat 16 n)) ⟨hs.memory, hs.bit5, hs.marked⟩ hexec
  · exact State.violated_inv hs _

end Sys2Proof.Machine
end

section
/-! PROOFS. The order of the accesses of every admitted instruction (20_memory.md R43, R44; 92_eei_decisions.md D19). -/

namespace Sys2Proof.Machine
open Sys2Proof.Claims

/-- The accesses of a class as the ports show them, each with its direction and address (R43). -/
def AccessClass.ports (op : Operand) (s : State) : AccessClass → List (Bool × Addr)
  | .operandRead => (pointerSlots op s).map (false, ·) ++ (getPointer op s).toList.map (false, ·)
  | .readModifyWrite =>
    (pointerSlots op s).map (false, ·) ++ (getPointer op s).toList.map (false, ·) ++
      (getPointer op s).toList.map (true, ·)
  | .store => (pointerSlots op s).map (false, ·) ++ (getPointer op s).toList.map (true, ·)
  | .pushes n => (pushSlots s.sp n).map (true, ·)
  | .pops n => (popSlots s.sp n).map (false, ·)
  | .trap => (pushSlots s.sp 3).map (true, ·) ++ [(false, Config.brkVector), (false, Config.brkVector + 1)]
  | .jump => (pointerSlots op s).map (false, ·)
  | .silent => []

@[simp] theorem readsOf_port (s : State) (as : List Addr) : (readsOf s as).map Access.port = as.map (false, ·) :=
  List.map_map

@[simp] theorem writesOf_port (t : State) (as : List Addr) : (writesOf t as).map Access.port = as.map (true, ·) :=
  List.map_map

/-- Directions and addresses are those of the class, whatever bytes are read and written. -/
theorem busTrace_port (o : Operation) (op : Operand) (s t : State) :
    (busTrace o op s t).map Access.port = (accessClass o).ports op s := by
  unfold busTrace
  cases accessClass o <;> simp [AccessClass.ports]

/-- The read-modify-write instructions have no form with a pointer (R64). -/
theorem pointerSlots_of_modify {o : Operation} {op : Operand} (s : State) (hw : admits o op.form = true)
    (ho : o ∈ [Operation.asl, .lsr, .rol, .ror, .inc, .dec]) : pointerSlots op s = [] := by
  have hforms : ∀ o ∈ [Operation.asl, .lsr, .rol, .ror, .inc, .dec], ∀ f ∈ Form.all, admits o f = true →
      f ∉ [Form.indirect, .indexedIndirect, .indirectIndexed] := by decide
  have hform := hforms o ho op.form op.form.mem_all hw
  cases op with
  | indirect | indexedIndirect | indirectIndexed => simp [Operand.form] at hform
  | _ => rfl

theorem popSlots_one (sp : Byte) : popSlots sp 1 = [stackSlot (sp + 1)] := by simp [popSlots]

theorem popSlots_two (sp : Byte) : popSlots sp 2 = [stackSlot (sp + 1), stackSlot (sp + 2)] := by
  simp [popSlots, List.range_succ, add_assoc]

theorem popSlots_three (sp : Byte) :
    popSlots sp 3 = [stackSlot (sp + 1), stackSlot (sp + 2), stackSlot (sp + 3)] := by
  simp [popSlots, List.range_succ, add_assoc]

/-- Settles O57: the ports of each class are its line of the table, with the stack slots counted from the first `SP`. -/
theorem accessesComeInTheOrderOfTheTable : Obligations.AccessesComeInTheOrderOfTheTable := by
  intro i s hrun
  obtain ⟨u, hexec, -⟩ := wellFormed_effect hrun.2 s
  refine ⟨_, hexec.trans (perform_ok hrun.1 hrun.2), ?_⟩
  intro ptrs ea slot bus
  have hptrs : ptrs = (pointerSlots i.operand s).map (false, ·) := by
    simp only [ptrs]
    cases i.operand <;> rfl
  have hbus {os : List Operation} {c : AccessClass} (hos : ∀ o ∈ os, accessClass o = c) (ho : i.operation ∈ os) :
      bus = c.ports i.operand s := hos _ ho ▸ busTrace_port _ _ s u
  have hone {o : Operation} (ho : i.operation = o) : bus = (accessClass o).ports i.operand s := ho ▸ busTrace_port _ _ s u
  refine ⟨fun ho => ?_, fun ho => ?_, fun ho => ?_, fun ho => ?_, fun ho => ?_, fun ho => ?_, fun ho => ?_, fun ho => ?_,
    fun ho => ?_, fun ho => ?_, fun ho => ?_⟩
  · rw [hptrs]
    exact hbus (c := .operandRead) (by decide) ho
  · rw [hbus (c := .readModifyWrite) (by decide) ho, AccessClass.ports, pointerSlots_of_modify s hrun.2 ho]
    rfl
  · rw [hptrs]
    exact hbus (c := .store) (by decide) ho
  · rw [hbus (c := .pushes 1) (by decide) ho, AccessClass.ports, pushSlots_one]
    rfl
  · rw [hbus (c := .pops 1) (by decide) ho, AccessClass.ports, popSlots_one]
    rfl
  · rw [hone ho, accessClass, AccessClass.ports, pushSlots_two]
    rfl
  · rw [hone ho, accessClass, AccessClass.ports, popSlots_two]
    rfl
  · rw [hone ho, accessClass, AccessClass.ports, pushSlots_three]
    rfl
  · rw [hone ho, accessClass, AccessClass.ports, popSlots_three]
    rfl
  · rw [hptrs]
    exact hone ho
  · exact hbus (c := .silent) (by decide) ho

end Sys2Proof.Machine
end

section
/-! PROOFS. B, D and I are inert: a call on a state that differs in one of them answers the same but for that flag
(10_state.md R29 to R31). -/

namespace Sys2Proof.Machine
open Sys2Proof.Claims

/-! ### Values of P and states that differ in one flag -/

/-- Two values of `P` agree in every flag but `f`. -/
def AgreeOff (f : Flag) (p q : Byte) : Prop := ∀ g, g ≠ f → getFlag q g = getFlag p g

/-- Two states differ in nothing but `P`, and there in no flag but `f`. -/
def DifferInFlag (f : Flag) (u u' : State) : Prop := ∃ q, u' = u.setP q ∧ AgreeOff f u.p q

/-- Two effects that raise the same outcome, or leave states that differ in the flag `f` alone. -/
inductive EffectsDiffer (f : Flag) : Effect → Effect → Prop
  | ok {u u' : State} (h : DifferInFlag f u u') : EffectsDiffer f (.ok u) (.ok u')
  | error (r : Raise) : EffectsDiffer f (.error r) (.error r)

section
variable {f : Flag} {p q : Byte}

theorem AgreeOff.refl (p : Byte) : AgreeOff f p p := fun _ _ => rfl

/-- A flag written in both is the same in both (R88). -/
theorem AgreeOff.setFlag (h : AgreeOff f p q) (k : Flag) (b : Bool) : AgreeOff f (setFlag p k b) (setFlag q k b) := by
  intro g hg
  rw [getFlag_setFlag, getFlag_setFlag, h g hg]

/-- N and Z from one byte (R90). -/
theorem AgreeOff.setNZ (h : AgreeOff f p q) (v : Byte) : AgreeOff f (setNZ p v) (setNZ q v) :=
  (h.setFlag .n _).setFlag .z _

/-- A flag output, present or absent (R27). -/
theorem AgreeOff.setFlagIf (h : AgreeOff f p q) (k : Flag) (b : Option Bool) :
    AgreeOff f (setFlagIf p k b) (setFlagIf q k b) := by
  cases b with
  | none => exact h
  | some b => exact h.setFlag k b

/-- The flags of one ALU output (R95). -/
theorem AgreeOff.aluFlags (h : AgreeOff f p q) (o : AluOut) : AgreeOff f (aluFlags p o) (aluFlags q o) :=
  ((h.setFlagIf .c _).setFlagIf .v _).setNZ o.r

/-- BIT's flags (R204). -/
theorem AgreeOff.bitFlags (h : AgreeOff f p q) (a m : Byte) : AgreeOff f (bitFlags p a m) (bitFlags q a m) :=
  ((h.setFlag _ _).setFlag _ _).setFlag _ _

end

/-! ### The resolver and the accesses do not look at P -/

section
variable (op : Operand) (s : State) (p : Byte)

@[simp] theorem getPointer_setP : getPointer op (s.setP p) = getPointer op s := by cases op <;> rfl

@[simp] theorem getU8_setP : getU8 op (s.setP p) = getU8 op s := by cases op <;> rfl

/-- A write back leaves `P`, and does not look at it (R113). -/
theorem setU8_setP (v : Byte) : setU8 op v (s.setP p) = (setU8 op v s).map (·.setP p) := by
  unfold setU8
  rw [getPointer_setP]
  split
  · cases getPointer op s <;> rfl
  · rfl

theorem busTrace_setP (o : Operation) (u : State) (q : Byte) :
    busTrace o op (s.setP p) (u.setP q) = busTrace o op s u := by
  have hslots : pointerSlots op (s.setP p) = pointerSlots op s := by cases op <;> rfl
  unfold busTrace
  rw [hslots, getPointer_setP]
  rfl

end

/-! ### Effects, by the shape of the rule -/

section
variable {f : Flag} {op : Operand} {s : State} {p : Byte}

theorem withValue_differ {r r' : Byte → State} (h : ∀ m, DifferInFlag f (r m) (r' m)) :
    EffectsDiffer f (withValue op s r) (withValue op (s.setP p) r') := by
  unfold withValue
  rw [getU8_setP]
  cases getU8 op s with
  | none => exact .error _
  | some m => exact .ok (h m)

theorem implicitOnly_differ {u u' : State} (h : DifferInFlag f u u') :
    EffectsDiffer f (implicitOnly op u) (implicitOnly op u') := by
  cases op with
  | implicit => exact .ok h
  | _ => exact .error _

theorem setU8_differ (h : AgreeOff f s.p p) (v : Byte) : EffectsDiffer f (setU8 op v s) (setU8 op v (s.setP p)) := by
  rw [setU8_setP]
  cases hu : setU8 op v s with
  | error r => exact .error r
  | ok u =>
    have hp : u.p = s.p := by obtain ⟨-, ⟨a, -, rfl⟩ | ⟨-, rfl⟩⟩ := setU8_ok hu <;> rfl
    exact .ok ⟨p, rfl, hp ▸ h⟩

theorem modify_differ (h : AgreeOff f s.p p) (hc : f ≠ .c) (g : AluOp) :
    EffectsDiffer f (modify op s g) (modify op (s.setP p) g) := by
  have hcarry : (s.setP p).flag .c = s.flag .c := h .c hc.symm
  unfold modify
  rw [getU8_setP, hcarry]
  cases getU8 op s with
  | none => exact .error _
  | some v =>
    have hset := setU8_differ (op := op) h (alu g v 0 (s.flag .c)).r
    dsimp only
    generalize setU8 op _ s = e, setU8 op _ (s.setP p) = e' at hset ⊢
    cases hset with
    | ok hu =>
      obtain ⟨q, rfl, hq⟩ := hu
      exact .ok ⟨_, rfl, hq.aluFlags _⟩
    | error r => exact .error r

theorem branch_differ (h : AgreeOff f s.p p) {k : Flag} (hk : k ≠ f) (want : Bool) :
    EffectsDiffer f (branch k want op s) (branch k want op (s.setP p)) := by
  have hflag : (s.setP p).flag k = s.flag k := h k hk
  cases op with
  | relative o =>
    simp only [branch, getPointer_setP, hflag]
    refine .ok ?_
    split
    · exact ⟨p, rfl, h⟩
    · exact ⟨p, rfl, h⟩
  | _ => exact .error _

end

/-- A call reports effects that differ in one flag by states that do. -/
theorem perform_differ {f : Flag} {i : Instr} {s : State} {p : Byte} {e e' : Effect} (hs : s.faulted = false)
    (hp : AgreeOff f s.p p) (he : EffectsDiffer f e e') :
    ∃ t t', perform i s e = .next t ∧ perform i (s.setP p) e' = .next t' ∧ DifferInFlag f t t' := by
  have hs' : (s.setP p).faulted = false := hs
  simp only [perform, hs, hs']
  cases pairStatus i.operation i.operand.form with
  | notWritable | contractViolation => exact ⟨_, _, rfl, rfl, p, rfl, hp⟩
  | ok =>
    cases he with
    | ok h =>
      obtain ⟨q, rfl, hq⟩ := h
      dsimp only
      rw [busTrace_setP]
      exact ⟨_, _, rfl, rfl, q, rfl, hq⟩
    | error r => cases r <;> exact ⟨_, _, rfl, rfl, p, rfl, hp⟩

/-- Every instruction but PHP and BRK has effects that differ in the flag alone. -/
theorem exec_differ {f : Flag} (hf : f ∈ [Flag.b, .d, .i]) {i : Instr} (hi : i.operation ∉ [Operation.php, .brk])
    {s : State} {p : Byte} (h : AgreeOff f s.p p) :
    ∃ e e', exec i s = perform i s e ∧ exec i (s.setP p) = perform i (s.setP p) e' ∧ EffectsDiffer f e e' := by
  have hc : f ≠ .c := by rintro rfl; simp at hf
  have hz : f ≠ .z := by rintro rfl; simp at hf
  have hn : f ≠ .n := by rintro rfl; simp at hf
  have hv : f ≠ .v := by rintro rfl; simp at hf
  have hcarry : (s.setP p).flag .c = s.flag .c := h .c hc.symm
  cases i with
  | php | brk => simp [Instr.operation] at hi
  | adc op | sbc op =>
    refine ⟨_, _, rfl, rfl, withValue_differ fun m => ?_⟩
    rw [hcarry]
    exact ⟨_, rfl, h.aluFlags _⟩
  | and op | ora op | eor op | cmp op | cpx op | cpy op =>
    exact ⟨_, _, rfl, rfl, withValue_differ fun m => ⟨_, rfl, h.aluFlags _⟩⟩
  | lda op | ldx op | ldy op => exact ⟨_, _, rfl, rfl, withValue_differ fun m => ⟨_, rfl, h.setNZ _⟩⟩
  | bit op => exact ⟨_, _, rfl, rfl, withValue_differ fun m => ⟨_, rfl, h.bitFlags _ _⟩⟩
  | asl op | lsr op | rol op | ror op | inc op | dec op => exact ⟨_, _, rfl, rfl, modify_differ h hc _⟩
  | sta op | stx op | sty op => exact ⟨_, _, rfl, rfl, setU8_differ h _⟩
  | inx op | iny op | dex op | dey op =>
    exact ⟨_, _, rfl, rfl, implicitOnly_differ ⟨_, rfl, h.aluFlags _⟩⟩
  | tax op | txa op | tay op | tya op | pla op =>
    exact ⟨_, _, rfl, rfl, implicitOnly_differ ⟨_, rfl, h.setNZ _⟩⟩
  | clc op | sec op | cli op | sei op | clv op | cld op | sed op =>
    exact ⟨_, _, rfl, rfl, implicitOnly_differ ⟨_, rfl, h.setFlag _ _⟩⟩
  | txs op | tsx op | pha op | nop op | rts op => exact ⟨_, _, rfl, rfl, implicitOnly_differ ⟨p, rfl, h⟩⟩
  | plp op => exact ⟨_, _, rfl, rfl, implicitOnly_differ ⟨restoreByte s.popValue, rfl, .refl _⟩⟩
  | rti op => exact ⟨_, _, rfl, rfl, implicitOnly_differ ⟨restoreByte s.popValue, rfl, .refl _⟩⟩
  | bcc op | bcs op => exact ⟨_, _, rfl, rfl, branch_differ h hc.symm _⟩
  | beq op | bne op => exact ⟨_, _, rfl, rfl, branch_differ h hz.symm _⟩
  | bmi op | bpl op => exact ⟨_, _, rfl, rfl, branch_differ h hn.symm _⟩
  | bvc op | bvs op => exact ⟨_, _, rfl, rfl, branch_differ h hv.symm _⟩
  | jmp op =>
    refine ⟨_, _, rfl, rfl, ?_⟩
    cases op with
    | absolute | indirect => exact .ok ⟨p, rfl, h⟩
    | _ => exact .error _
  | jsr op =>
    refine ⟨_, _, rfl, rfl, ?_⟩
    cases op with
    | absolute => exact .ok ⟨p, rfl, h⟩
    | _ => exact .error _

/-- Settles O55: a flag write gives a state that differs in that flag alone, and so do the two answers. -/
theorem breakDecimalAndInterruptFlagsAreInert : Obligations.BreakDecimalAndInterruptFlagsAreInert := by
  intro f hf v i s hi hs
  have hp : AgreeOff f s.p (setFlag s.p f v) := fun g hg => (getFlag_setFlag s.p f g v).trans (if_neg hg)
  obtain ⟨e, e', hexec, hexec', he⟩ := exec_differ hf hi hp
  obtain ⟨t, t', ht, ht', q, rfl, hq⟩ := perform_differ (i := i) hs hp he
  exact ⟨t, t.setP q, hexec.trans ht, hexec'.trans ht', ⟨rfl, rfl, rfl, rfl, rfl⟩, rfl, hq, rfl, rfl⟩

end Sys2Proof.Machine
end

section
/-! PROOFS. The launch, the host's accessors, the step and the ends of a run (10_state.md R33 to R35; 60_exceptions.md R220,
R221, R236; 70_reset_and_hazards.md R240, R247, R248). -/

namespace Sys2Proof.Machine
open Sys2Proof.Claims

/-! ### Launch and reset -/

/-- Bytes listed for a launch, written one after the other (R240; log 17). -/
def Memory.writeAll (m : Memory) (l : List (Addr × Byte)) : Memory := l.foldl (fun m c => m.write c.1.toNat c.2) m

/-- The last byte listed for an address is the one read there (log 17). -/
theorem Memory.read_writeAll (m : Memory) (l : List (Addr × Byte)) {a : Addr} {c : Addr × Byte}
    (h : l.reverse.find? (fun c => c.1 == a) = some c) : (m.writeAll l).read a.toNat = c.2 := by
  induction l using List.reverseRecOn with
  | nil => cases h
  | append_singleton l d ih =>
    rw [List.reverse_append, List.reverse_singleton, List.singleton_append, List.find?_cons] at h
    rw [Memory.writeAll, List.foldl_append, List.foldl_cons, List.foldl_nil, Memory.read_write]
    by_cases hd : d.1 = a
    · simp only [hd, beq_self_eq_true, Option.some.injEq] at h
      rw [if_pos (congrArg BitVec.toNat hd.symm), h]
    · simp only [beq_eq_false_iff_ne.2 hd] at h
      rw [if_neg fun he => hd (BitVec.eq_of_toNat_eq he.symm)]
      exact ih h

/-- Writing the listed bytes keeps the canonical form. -/
theorem Memory.writeAll_wf {m : Memory} (hm : m.wf) (l : List (Addr × Byte)) : (m.writeAll l).wf := by
  induction l generalizing m with
  | nil => exact hm
  | cons c l ih => exact ih (Memory.write_wf hm c.1.isLt c.2)

/-- Settles O1: each register is given, the flags pass through bit 5, and the memory is written in the order listed. -/
theorem launchTakesItsParameter : Obligations.LaunchTakesItsParameter := by
  intro i
  exact ⟨rfl, rfl, rfl, rfl, rfl, fun f => getFlag_restoreByte i.p f, restoreByte_bit5 i.p, rfl,
    fun a v h => Memory.read_writeAll [] i.mem h⟩

/-- Settles O2: reset is the launch of zeros. -/
theorem resetValues : Obligations.ResetValues := ⟨rfl, rfl, rfl, fun _ => rfl⟩

/-- Every launch meets the invariant. -/
theorem State.launch_inv (i : Init) : (State.launch i).Inv :=
  ⟨Memory.writeAll_wf Memory.reset_wf i.mem, restoreByte_bit5 i.p, nofun⟩

/-- Settles O3: reset is a launch (O2). -/
theorem launchMeetsTheInvariant : Obligations.LaunchMeetsTheInvariant := by
  obtain ⟨hreset, -⟩ := resetValues
  exact ⟨hreset ▸ State.launch_inv _, State.launch_inv⟩

/-! ### The host's accessors -/

/-- A host write acts on an unmarked core (R236). -/
theorem hostWrite_of_unmarked {s : State} (hf : s.faulted = false) (h : HostWrite) :
    hostWrite h s = some (applyHostWrite h s) := by
  simp [hostWrite, hf]

/-- A host write has no access to the mark (R33). -/
theorem applyHostWrite_faulted (h : HostWrite) (s : State) : (applyHostWrite h s).faulted = s.faulted := by
  cases h <;> rfl

/-- A host write keeps the memory in canonical form and bit 5 of `P` at 1 (R26, R33). -/
theorem applyHostWrite_inv {s : State} (hs : s.Inv) (hf : s.faulted = false) (h : HostWrite) : (applyHostWrite h s).Inv := by
  have hmark : (applyHostWrite h s).faulted = true → (applyHostWrite h s).out.status = .contractViolation := by
    rw [applyHostWrite_faulted, hf]; nofun
  refine ⟨?_, ?_, hmark⟩
  · cases h with
    | byte a v => exact State.writeByte_wf hs.memory a v
    | _ => exact hs.memory
  · cases h with
    | flag f b => exact (setFlag_bit5 s.p f b).trans hs.bit5
    | psw v => exact restoreByte_bit5 v
    | _ => exact hs.bit5

/-- Settles O5: by what each accessor writes. -/
theorem hostWritesKeepTheInvariant : Obligations.HostWritesKeepTheInvariant := by
  intro h s hs
  refine ⟨fun hf => by simp [hostWrite, hf], fun hf => ?_⟩
  exact ⟨_, hostWrite_of_unmarked hf h, applyHostWrite_inv hs hf h, (applyHostWrite_faulted h s).trans hf⟩

/-- Settles O6: each accessor's write is the update of its own field, with that update's frame. -/
theorem hostReadsWhatItWrote : Obligations.HostReadsWhatItWrote := by
  intro s hf
  have hwrite := hostWrite_of_unmarked hf
  refine ⟨fun v => ?_, fun v => ?_, fun v => ?_, fun v => ?_, fun v => ?_, fun f b => ?_, fun v => ?_, fun a v => ?_⟩
  · exact ⟨_, hwrite (.a v), rfl, s.setReg_frame .a v, rfl⟩
  · exact ⟨_, hwrite (.x v), rfl, s.setReg_frame .x v, rfl⟩
  · exact ⟨_, hwrite (.y v), rfl, s.setReg_frame .y v, rfl⟩
  · exact ⟨_, hwrite (.sp v), rfl, s.setReg_frame .sp v, rfl⟩
  · exact ⟨_, hwrite (.pc v), rfl, ((Frame.refl s).setPc_completed v []).of_completed⟩
  · have hread : (s.setFlag f b).flag f = b := (getFlag_setFlag s.p f f b).trans (if_pos rfl)
    exact ⟨_, hwrite (.flag f b), by cases b <;> simp [hostRead, applyHostWrite, hread], s.setFlag_frame f b, rfl⟩
  · have hread : (s.setPsw v).psw = v ||| 0x20 := restoreByte_restoreByte v
    exact ⟨_, hwrite (.psw v), congrArg (BitVec.setWidth 16) hread, ⟨rfl, rfl, rfl, rfl, rfl⟩, fun _ => rfl⟩
  · have hread : (s.writeByte a v).readByte a = v := by simp
    exact ⟨_, hwrite (.byte a v), congrArg (BitVec.setWidth 16) hread, s.writeByte_frame a v, rfl⟩

/-! ### The step -/

/-- A call on a word that decodes is the call on its instruction. -/
theorem execute_of_decode {w : IWord} {i : Instr} {s : State} (hf : s.faulted = false) (hw : decode w = .ok i) :
    execute w s = exec i s := by
  simp [execute, hf, hw]

/-- A call on a word that fails a check is a violation. -/
theorem execute_of_error {w : IWord} {e : DecodeError} {s : State} (hf : s.faulted = false) (hw : decode w = .error e) :
    execute w s = .next (s.violated (some w)) := by
  simp [execute, hf, hw]

/-- Settles O13: the offered word is taken and executed. -/
theorem stepRunsTheOfferedInstruction : Obligations.StepRunsTheOfferedInstruction := by
  intro s w i hf hport hw
  simp only [step, nextCall, hport]
  exact execute_of_decode hf hw

/-- Settles O14: the fetched word is executed with `PC` past it. -/
theorem stepRunsTheFetchedInstruction : Obligations.StepRunsTheFetchedInstruction := by
  intro s w n i hf hport hfetch hw
  simp only [step, nextCall, hport, dispatchStep, hf, hfetch]
  exact execute_of_decode hf hw

/-- An instruction has at most three bytes (R69). -/
theorem encodeBytes_length_le {i : Instr} {bs : List Byte} (h : encodeBytes i = some bs) : bs.length ≤ 3 := by
  obtain ⟨b, -, rfl⟩ := Option.map_eq_some_iff.1 h
  exact List.length_take_le' _ _

/-- Settles O15: the bytes at `PC` are fetched as the instruction's word and length (O12), which decodes to it (O7). -/
theorem stepRunsTheBytesInMemory : Obligations.StepRunsTheBytesInMemory := by
  intro s i bs hf hport hbs hmem
  have hprefix : bs <+: [s.readByte s.pc, s.readByte (s.pc + 1), s.readByte (s.pc + 2)] := by
    have hlen := encodeBytes_length_le hbs
    refine List.prefix_iff_getElem?.2 fun k hk => ?_
    rw [← List.getElem?_eq_getElem hk, hmem k hk]
    have hcases : k = 0 ∨ k = 1 ∨ k = 2 := by omega
    obtain rfl | rfl | rfl := hcases
    · exact congrArg (fun a => some (s.readByte a)) (BitVec.add_zero s.pc).symm
    · rfl
    · rfl
  exact stepRunsTheFetchedInstruction s _ _ i hf hport (streamWord_of_encodeBytes hbs hprefix)
    (decodeOfEncodeIsTheInstruction i)

/-- Settles O16: a word that fails a check is a violation. -/
theorem malformedWordSetsTheFaultMark : Obligations.MalformedWordSetsTheFaultMark := by
  intro s w e hf hw
  exact ⟨_, execute_of_error hf hw, rfl, rfl, ⟨rfl, rfl, rfl, rfl, rfl⟩, rfl, rfl⟩

/-- Settles O17: with no row there is no word to fetch. -/
theorem byteWithoutRowSetsTheFaultMark : Obligations.ByteWithoutRowSetsTheFaultMark := by
  intro s hf hport hrow
  have hfetch : fetch s = none := by simp [fetch, streamWord, hrow]
  have hstep : step s = .next (s.violated none) := by simp [step, nextCall, hport, dispatchStep, hf, hfetch]
  exact ⟨_, hstep, rfl, rfl, ⟨rfl, rfl, rfl, rfl, rfl⟩, rfl, rfl⟩

/-- Settles O18: every call looks at the mark first. -/
theorem markedCoreExecutesNothing : Obligations.MarkedCoreExecutesNothing := by
  intro s hf
  have hexecute (w : IWord) {s : State} (hf : s.faulted = true) : execute w s = .fault .coreFaulted := by
    simp [execute, hf]
  have hstep : step s = .fault .coreFaulted := by
    unfold step nextCall
    split
    · exact hexecute _ hf
    · simp [dispatchStep, hf]
  refine ⟨hstep, fun w => hexecute w hf, fun i => ?_, by rw [hstep]; rfl⟩
  obtain ⟨e, he⟩ := exec_is_perform i s
  exact he.trans (perform_marked hf)

/-! ### The end of a run -/

/-- A marked state ends a run at once, whatever the budget. -/
theorem runUntil_of_marked {s : State} (hf : s.faulted = true) (h : Addr) (n : Nat) : runUntil h n s = .faulted s := by
  cases n <;> simp [runUntil, hf]

/-- An unmarked state at `HALT_PC` ends a run at once, whatever the budget. -/
theorem runUntil_of_halt {s : State} (hf : s.faulted = false) (n : Nat) : runUntil s.pc n s = .halted s := by
  cases n <;> simp [runUntil, hf]

/-- A call on an instruction answers a next state on every unmarked core (R220). -/
theorem exec_next_of_unmarked {s : State} (hf : s.faulted = false) (i : Instr) : ∃ t, exec i s = .next t := by
  cases hp : pairStatus i.operation i.operand.form with
  | ok =>
    obtain ⟨u, hexec, -⟩ := wellFormed_effect ((wellFormed_iff_pairStatus i).2 hp) s
    exact ⟨_, hexec.trans (perform_ok hf ((wellFormed_iff_pairStatus i).2 hp))⟩
  | notWritable => exact ⟨_, exec_of_notWritable hf hp⟩
  | contractViolation => exact ⟨_, exec_of_violation hf hp⟩

/-- A call on a word answers a next state on every unmarked core (R220). -/
theorem execute_next_of_unmarked {s : State} (hf : s.faulted = false) (w : IWord) : ∃ t, execute w s = .next t := by
  cases hw : decode w with
  | ok i => exact (execute_of_decode hf hw).symm ▸ exec_next_of_unmarked hf i
  | error e => exact ⟨_, execute_of_error hf hw⟩

/-- The dispatcher answers a next state on every unmarked core (R247). -/
theorem dispatchStep_next {s : State} (hf : s.faulted = false) : ∃ t, dispatchStep s = .next t := by
  cases hfetch : fetch s with
  | none => exact ⟨s.violated none, by simp [dispatchStep, hf, hfetch]⟩
  | some wn =>
    obtain ⟨w, n⟩ := wn
    have hdispatch : dispatchStep s = execute w (s.setPc (s.pc + BitVec.ofNat 16 n)) := by
      simp [dispatchStep, hf, hfetch]
    rw [hdispatch]
    exact execute_next_of_unmarked (s := s.setPc (s.pc + BitVec.ofNat 16 n)) hf w

/-- Elsewhere a run is out of fuel with no budget, and takes one step of the budget it has. -/
theorem runUntil_elsewhere {s : State} {h : Addr} (hf : s.faulted = false) (hpc : s.pc ≠ h) :
    runUntil h 0 s = .outOfFuel s ∧ ∃ t, ∀ n, runUntil h (n + 1) s = runUntil h n t := by
  obtain ⟨t, ht⟩ := dispatchStep_next hf
  exact ⟨by simp [runUntil, hf, hpc], t, fun n => by simp [runUntil, hf, hpc, ht]⟩

/-- How a run goes on from a state: it faults or halts there, whatever the budget, or it goes on elsewhere. -/
theorem runUntil_cases (h : Addr) (s : State) :
    (s.faulted = true ∧ ∀ n, runUntil h n s = .faulted s) ∨
      (s.pc = h ∧ s.faulted = false ∧ ∀ n, runUntil h n s = .halted s) ∨
      (runUntil h 0 s = .outOfFuel s ∧ ∃ t, ∀ n, runUntil h (n + 1) s = runUntil h n t) := by
  cases hf : s.faulted with
  | true => exact .inl ⟨rfl, runUntil_of_marked hf h⟩
  | false =>
    by_cases hpc : s.pc = h
    · exact .inr (.inl ⟨hpc, rfl, hpc ▸ runUntil_of_halt hf⟩)
    · exact .inr (.inr (runUntil_elsewhere hf hpc))

/-- A run that ends before its budget is spent ends the same way with a larger one. -/
theorem runUntil_add (h : Addr) (n k : Nat) (s : State) (hend : ∀ t, runUntil h n s ≠ .outOfFuel t) :
    runUntil h (n + k) s = runUntil h n s := by
  induction n generalizing s with
  | zero =>
    obtain ⟨-, hrun⟩ | ⟨-, -, hrun⟩ | ⟨hfuel, -⟩ := runUntil_cases h s
    · rw [hrun, hrun]
    · rw [hrun, hrun]
    · exact absurd hfuel (hend s)
  | succ n ih =>
    obtain ⟨-, hrun⟩ | ⟨-, -, hrun⟩ | ⟨-, t, hrun⟩ := runUntil_cases h s
    · rw [hrun, hrun]
    · rw [hrun, hrun]
    · rw [hrun] at hend
      rw [Nat.add_right_comm, hrun, hrun, ih t hend]

/-- What an end of a run says of its state (R248). -/
def RunEnd.Sound (h : Addr) : RunEnd → Prop
  | .halted t => t.pc = h ∧ t.faulted = false
  | .faulted t => t.faulted = true
  | .outOfFuel _ => True

/-- A run halts at `HALT_PC` unmarked, and faults marked. -/
theorem runUntil_sound (h : Addr) (n : Nat) (s : State) : (runUntil h n s).Sound h := by
  induction n generalizing s with
  | zero =>
    obtain ⟨hf, hrun⟩ | ⟨hpc, hf, hrun⟩ | ⟨hfuel, -⟩ := runUntil_cases h s
    · exact hrun 0 ▸ hf
    · exact hrun 0 ▸ ⟨hpc, hf⟩
    · exact hfuel ▸ trivial
  | succ n ih =>
    obtain ⟨hf, hrun⟩ | ⟨hpc, hf, hrun⟩ | ⟨-, t, hrun⟩ := runUntil_cases h s
    · exact hrun (n + 1) ▸ hf
    · exact hrun (n + 1) ▸ ⟨hpc, hf⟩
    · exact hrun n ▸ ih t

/-- Settles O58: both ends come before the budget is spent, and are what `RunEnd.Sound` says. -/
theorem runEndsDoNotDependOnTheBudget : Obligations.RunEndsDoNotDependOnTheBudget := by
  intro h n k s t
  have hsound := runUntil_sound h n s
  constructor
  · intro hrun
    rw [hrun] at hsound
    exact ⟨(runUntil_add h n k s (by simp [hrun])).trans hrun, hsound⟩
  · intro hrun
    rw [hrun] at hsound
    exact ⟨(runUntil_add h n k s (by simp [hrun])).trans hrun, hsound⟩

end Sys2Proof.Machine
end

section
/-! PROOFS. The branches, RTS and BRK, the returns that undo their calls, the round trips of the stack, complement
subtraction and the address of IndirectIndexed (40_stack_and_flags.md R84, R85; 41_address_mode_resolver.md R111;
42_alu_8bit.md R141; 43_branch_jump_controller.md R161 to R169, R172 to R174). -/

namespace Sys2Proof.Machine
open Sys2Proof.Claims

/-! ### The resolver and the ALU -/

/-- Settles O49: the zero-page pointer, indexed by Y. -/
theorem indirectIndexedAddsYToAZeroPagePointer : Obligations.IndirectIndexedAddsYToAZeroPagePointer := by
  intro s o
  rw [getPointer, Option.map_some, indexed_toNat, zeroPagePointer_toNat]

/-- The one's complement of a byte as a number (R141). -/
theorem complement_toNat (b : Byte) : (b ^^^ 0xFF).toNat = 255 - b.toNat := by
  rw [show b ^^^ 0xFF = ~~~b from BitVec.xor_allOnes, BitVec.toNat_not]

/-- The results of SUB and of ADD of the complement are one: `a - b - (1 - c)` and `a + (255 - b) + c` differ by 256. -/
theorem sub8_r_eq_add8 (a b : Byte) (cin : Bool) : (sub8 a b cin).r = (add8 a (b ^^^ 0xFF) cin).r := by
  have hsub := sub8_r_toNat a b cin
  have hadd := add8_r_toNat a (b ^^^ 0xFF) cin
  have := b.isLt
  rw [complement_toNat] at hadd
  apply BitVec.eq_of_toNat_eq
  cases cin <;> simp only [Bool.not_true, Bool.not_false, Bool.toNat_true, Bool.toNat_false] at hsub hadd <;> omega

/-- Settles O29: result, carry and overflow, each as the number or the sign bits its rule names. -/
theorem subtractIsAddOfTheComplement : Obligations.SubtractIsAddOfTheComplement := by
  intro a b cin
  have hr := sub8_r_eq_add8 a b cin
  have hc : (sub8 a b cin).cout = (add8 a (b ^^^ 0xFF) cin).cout := by
    have := b.isLt
    rw [sub8_cout, add8_cout, complement_toNat, Option.some.injEq, decide_eq_decide]
    cases cin <;> simp only [Bool.not_true, Bool.not_false, Bool.toNat_true, Bool.toNat_false] <;> omega
  have hv : (sub8 a b cin).vout = (add8 a (b ^^^ 0xFF) cin).vout := by
    have hbit : (b ^^^ 0xFF).getLsbD 7 = !b.getLsbD 7 := by simp
    rw [sub8_vout, add8_vout, hr, hbit]
    cases a.getLsbD 7 <;> cases b.getLsbD 7 <;> rfl
  cases hs : sub8 a b cin
  cases ha : add8 a (b ^^^ 0xFF) cin
  simp_all

/-! ### The stack -/

/-- A pop right after a push gives the byte back (R85). -/
@[simp] theorem State.popValue_push (s : State) (v : Byte) : (s.push v).popValue = v := by
  rw [State.popValue_eq, State.push_sp, sub_add_cancel, State.push_readByte, if_pos rfl]

/-- `pop_pc` on the two bytes of a `PC` that stand above `SP` (R83). -/
theorem State.popPc_of_bytes {t : State} {sp : Byte} {pc : Addr} (hsp : t.sp = sp - 1 - 1)
    (hlow : t.readByte (stackSlot (sp - 1)) = pc.extractLsb' 0 8) (hhigh : t.readByte (stackSlot sp) = pc.extractLsb' 8 8) :
    t.popPc.pc = pc ∧ t.popPc.sp = sp := by
  have hup : sp - 1 - 1 + 1 = sp - 1 := sub_add_cancel _ _
  have hup' : sp - 1 + 1 = sp := sub_add_cancel _ _
  rw [State.popPc_pc, State.popPc_sp, hsp, hup, hup', hlow, hhigh]
  exact ⟨append_bytes pc, rfl⟩

/-- `pop_pc` right after `push_pc` gives `PC` and `SP` back (R85). -/
theorem State.popPc_pushPc (s : State) : s.pushPc.popPc.pc = s.pc ∧ s.pushPc.popPc.sp = s.sp :=
  State.popPc_of_bytes rfl s.pushPc_low s.pushPc_high

/-- Settles O52: the slots of `push_pc` are apart at every `SP`, and each pop names the slot of the push it undoes. -/
theorem stackPrimitivesRoundTrip : Obligations.StackPrimitivesRoundTrip := by
  intro s v
  obtain ⟨hpc, hsp⟩ := s.popPc_pushPc
  refine ⟨s.popValue_push v, sub_add_cancel s.sp 1, hpc, hsp, rfl, ?_, ?_, ?_⟩
  · rw [State.pushPc_sp]; bv_omega
  · rw [← stackSlot_toNat]; exact s.pushPc_high
  · have hlow : 256 + (s.sp.toNat + 255) % 256 = (stackSlot (s.sp - 1)).toNat := by rw [stackSlot_toNat]; bv_omega
    rw [hlow]; exact s.pushPc_low

/-! ### The branches -/

/-- The body of R161, on the flag it tests and the value it wants. -/
theorem branchRule_of_branch {i : Operand → Instr} {tag : Nat} {f : Flag} {want : Bool}
    (htakes : TakesForms i tag [.relative] [])
    (hexec : ∀ o s, exec (i (.relative o)) s =
      perform (i (.relative o)) s (.ok (if s.flag f = want then s.setPc (s.pc + o.signExtend 16) else s))) :
    BranchRule i tag f want := by
  refine ⟨htakes, fun o s hf => ?_⟩
  have hw : (i (.relative o)).wellFormed = true := (htakes (.relative o) s hf).2.1.2 (List.mem_singleton.2 rfl)
  refine ⟨_, completes_of_ok hf hw (hexec o s), fun htaken => ?_, fun hnot => ?_, ?_⟩
  · rw [if_pos htaken]; exact relative_toInt s.pc o
  · rw [if_neg hnot]; rfl
  · split
    · exact (Frame.refl s).setPc_completed _ _
    · exact (Frame.refl s).completed _

/-- Settles O31: the eight are one rule over their flag and the value that takes the branch. -/
theorem branchesTestOneFlag : Obligations.BranchesTestOneFlag := by
  refine ⟨?_, ?_, ?_, ?_, ?_, ?_, ?_, ?_⟩
  · exact branchRule_of_branch (takesForms_of_outcomes (o := .bcc) (fun _ => rfl) rfl (by decide)) fun _ _ => rfl
  · exact branchRule_of_branch (takesForms_of_outcomes (o := .bcs) (fun _ => rfl) rfl (by decide)) fun _ _ => rfl
  · exact branchRule_of_branch (takesForms_of_outcomes (o := .beq) (fun _ => rfl) rfl (by decide)) fun _ _ => rfl
  · exact branchRule_of_branch (takesForms_of_outcomes (o := .bne) (fun _ => rfl) rfl (by decide)) fun _ _ => rfl
  · exact branchRule_of_branch (takesForms_of_outcomes (o := .bmi) (fun _ => rfl) rfl (by decide)) fun _ _ => rfl
  · exact branchRule_of_branch (takesForms_of_outcomes (o := .bpl) (fun _ => rfl) rfl (by decide)) fun _ _ => rfl
  · exact branchRule_of_branch (takesForms_of_outcomes (o := .bvc) (fun _ => rfl) rfl (by decide)) fun _ _ => rfl
  · exact branchRule_of_branch (takesForms_of_outcomes (o := .bvs) (fun _ => rfl) rfl (by decide)) fun _ _ => rfl

/-! ### RTS and BRK -/

/-- Settles O34: `pop_pc`, its two slots counted from the first `SP`. -/
theorem rtsPopsThePc : Obligations.RtsPopsThePc := by
  refine ⟨takesForms_of_outcomes (o := .rts) (fun _ => rfl) rfl (by decide), fun s hf => ?_⟩
  have htwo : s.sp + 1 + 1 = s.sp + 2 := add_assoc s.sp 1 1
  have hpc : s.popPc.pc = s.readByte (stackSlot (s.sp + 2)) ++ s.readByte (stackSlot (s.sp + 1)) := by
    rw [State.popPc_pc, htwo]
  exact ⟨_, completes_of_ok (u := s.popPc) hf rfl rfl, htwo, hpc, s.popPc_frame.completed _⟩

/-- The three bytes of the trap, each at its own slot (R173). -/
theorem State.takeBreak_bytes (s : State) :
    s.takeBreak.readByte (stackSlot s.sp) = s.pc.extractLsb' 8 8 ∧
      s.takeBreak.readByte (stackSlot (s.sp - 1)) = s.pc.extractLsb' 0 8 ∧
      s.takeBreak.readByte (stackSlot (s.sp - 1 - 1)) = s.psw := by
  obtain ⟨hne, hne', hne''⟩ := slots_ne s.sp
  simp only [State.takeBreak_readByte, stackSlot_inj, hne, hne', hne'', if_pos, if_false, and_self]

/-- Settles O35: the trap's bytes, with its slots counted from the first `SP`, and its frame. -/
theorem brkTakesTheTrap : Obligations.BrkTakesTheTrap := by
  refine ⟨takesForms_of_outcomes (o := .brk) (fun _ => rfl) rfl (by decide), fun s hf => ?_⟩
  have htwo : s.sp - 1 - 1 = s.sp - 2 := sub_sub s.sp 1 1
  have hthree : s.sp - 1 - 1 - 1 = s.sp - 3 := by rw [htwo]; exact sub_sub s.sp 2 1
  obtain ⟨hhigh, hlow, hp⟩ := s.takeBreak_bytes
  have hb : s.takeBreak.flag .b = true := by
    rw [State.flag, State.takeBreak_p, getFlag_setFlag, if_pos rfl]
  have hframe := s.takeBreak_frame
  rw [htwo] at hp hframe
  exact ⟨_, completes_of_ok (u := s.takeBreak) hf rfl rfl, s.takeBreak_sp.trans hthree, hhigh, hlow, hp, hb,
    s.takeBreak_pc, hframe.completed _⟩

/-! ### Returns -/

/-- The return from a state whose stack is the trap's gives `PC`, `SP` and `P` back (R174). -/
theorem State.returnFromBreak_takeBreak {s t : State} (hsp : t.sp = s.sp - 1 - 1 - 1)
    (hbytes : ∀ a, t.readByte a = s.takeBreak.readByte a) :
    t.returnFromBreak.pc = s.pc ∧ t.returnFromBreak.sp = s.sp ∧ t.returnFromBreak.psw = s.psw := by
  obtain ⟨hhigh, hlow, hp⟩ := s.takeBreak_bytes
  have hup : t.sp + 1 = s.sp - 1 - 1 := by rw [hsp, sub_add_cancel]
  obtain ⟨hpc, hback⟩ := State.popPc_of_bytes (t := t.popped.setPsw t.popValue)
    (by rw [State.setPsw_sp, State.popped_sp, hup])
    (by rw [State.setPsw_readByte, State.popped_readByte, hbytes, hlow])
    (by rw [State.setPsw_readByte, State.popped_readByte, hbytes, hhigh])
  refine ⟨hpc, hback, ?_⟩
  rw [State.psw, State.returnFromBreak_p, hup, hbytes, hp, State.psw, restoreByte_restoreByte, restoreByte_restoreByte]

/-- JSR pushes `PC` and jumps (R171). -/
theorem exec_jsr {s : State} (hf : s.faulted = false) (a : Addr) :
    ∃ bus, exec (.jsr (.absolute a)) s = .next ((s.pushPc.setPc a).completed bus) :=
  ⟨_, (completes_of_ok (u := s.pushPc.setPc a) hf rfl rfl).answer⟩

/-- RTS pops `PC` (R172). -/
theorem exec_rts {s : State} (hf : s.faulted = false) :
    ∃ bus, exec (.rts .implicit) s = .next (s.popPc.completed bus) :=
  ⟨_, (completes_of_ok (u := s.popPc) hf rfl rfl).answer⟩

/-- BRK takes the trap (R173). -/
theorem exec_brk {s : State} (hf : s.faulted = false) :
    ∃ bus, exec (.brk .implicit) s = .next (s.takeBreak.completed bus) :=
  ⟨_, (completes_of_ok (u := s.takeBreak) hf rfl rfl).answer⟩

/-- RTI returns from it (R174). -/
theorem exec_rti {s : State} (hf : s.faulted = false) :
    ∃ bus, exec (.rti .implicit) s = .next (s.returnFromBreak.completed bus) :=
  ⟨_, (completes_of_ok (u := s.returnFromBreak) hf rfl rfl).answer⟩

/-- Settles O37: the returns pop the bytes their calls pushed, at every `SP`. -/
theorem returnsUndoTheirCalls : Obligations.ReturnsUndoTheirCalls := by
  constructor
  · intro s a hf
    obtain ⟨bus, hcall⟩ := exec_jsr hf a
    obtain ⟨bus', hret⟩ := exec_rts (s := (s.pushPc.setPc a).completed bus) hf
    obtain ⟨hpc, hsp⟩ := State.popPc_of_bytes (t := (s.pushPc.setPc a).completed bus) rfl s.pushPc_low s.pushPc_high
    exact ⟨_, _, hcall, hret, hpc, hsp⟩
  · intro s hf
    obtain ⟨bus, hcall⟩ := exec_brk hf
    obtain ⟨bus', hret⟩ := exec_rti (s := s.takeBreak.completed bus) (s.takeBreak_faulted.trans hf)
    obtain ⟨hpc, hsp, hpsw⟩ := State.returnFromBreak_takeBreak (t := s.takeBreak.completed bus) s.takeBreak_sp fun _ => rfl
    exact ⟨_, _, hcall, hret, hpc, hsp, hpsw⟩

end Sys2Proof.Machine
end
